-- ==== Sys2Proof/Word.lean ====
section
/-! DEFINITION. The word types of the block (R3): a byte, a word of 32 bits, an image word of 64 bits. -/

namespace Sys2Proof

/-- A byte. -/
abbrev Byte := BitVec 8

/-- A word: 32 bits (R3). -/
abbrev Word := BitVec 32

/-- An image word: 64 bits of an image area (R3). -/
abbrev DWord := BitVec 64

end Sys2Proof
end

