-- ==== Sys2Proof/Syntax.lean ====
section
/-! DEFINITION. The commands that the block takes: one constructor per row of spec/opcode_table.json, those with
operands first, each in the table's order. -/

namespace Sys2Proof

/-- Who writes or reads a register (R6, R9, R10). -/
inductive Writer where
  | lantern | context | host | debugger
  deriving DecidableEq, Repr

/-- What ends block sleep (R53): an EVT_IN line 12 to 15, or CLAP_I low. -/
inductive WakeSrc where
  | evtIn (k : Nat)
  | clap
  deriving DecidableEq, Repr


/-- The commands. Each constructor's comment gives the row's mnemonic and rule. -/
inductive Instr where
  /-- PWR_RST_BLOCK (R60). -/
  | pwrRstBlock (who : Writer) (v : Word)
  /-- PWR_RST_DOMAIN (R55). -/
  | pwrRstDomain (who : Writer) (v : Word)
  /-- PWR_CTRL_REQUEST (R46). -/
  | pwrCtrlRequest (who : Writer) (v : Word)
  /-- PWR_CTRL_SLEEP (R53). -/
  | pwrCtrlSleep (who : Writer) (v : Word)
  /-- PWR_ACK_RISE (R47). -/
  | pwrAckRise (pd : Nat)
  /-- DOMAIN_READY (R47). -/
  | domainReady (pd : Nat)
  /-- PWR_ACK_FALL (R48). -/
  | pwrAckFall (pd : Nat)
  /-- ACK_TIMEOUT (R49). -/
  | ackTimeout (pd : Nat)
  /-- DOZE_ENTRY (R50). -/
  | dozeEntry (pd : Nat)
  /-- SLEEP_WAKE (R53). -/
  | sleepWake (src : WakeSrc)
  /-- CLOCK_LOSS (R44). -/
  | clockLoss (clk : Nat)
  /-- MEASUREMENT_WINDOW (R44). -/
  | measurementWindow (counts : List Nat)
  /-- EVT_IN_EDGE (R35). -/
  | evtInEdge (k : Nat)
  /-- CLOCK_CHECK_PASS (R64). -/
  | clockCheckPass (counts : List Nat)
  /-- BASE_CONTROL_STORE_LOAD (R66). -/
  | baseControlStoreLoad (crcOk : Bool)
  /-- AUTHENTICATE_AND_DECRYPT (R71). -/
  | authenticateAndDecrypt (blob : Nat)
  /-- APPLY_PATCH (R75). -/
  | applyPatch (readBackOk : Bool)
  /-- BANK_BIST (R76). -/
  | bankBist (fails : Nat) (kbFail : Bool)
  /-- STR_CLEAR_WRITE (R86). -/
  | strClearWrite (who : Writer) (v : Word)
  /-- HOST_READ (R28). -/
  | hostRead (wordAddr : Nat)
  /-- HOST_WRITE (R28). -/
  | hostWrite (wordAddr : Nat) (v : Word) (be : Nat)
  /-- REGISTER_WRITE (R9). -/
  | registerWrite (who : Writer) (addr : Nat) (v : Word)
  /-- DOORBELL_SUBMIT (R407). -/
  | doorbellSubmit (who : Writer) (v : Word)
  /-- DOORBELL_RING (R407). -/
  | doorbellRing (who : Writer) (v : Word)
  /-- REPLY_STATUS_READ (R408). -/
  | replyStatusRead (who : Writer) (slot : Nat)
  /-- CLK_TIMELO_READ (R61). -/
  | clkTimeloRead (who : Writer)
  /-- CAR_CINIT_WRITE (R187). -/
  | carCinitWrite (who : Writer) (v : Word)
  /-- CAR_PRIO_WRITE (R209). -/
  | carPrioWrite (who : Writer) (n : Nat) (v : Word)
  /-- TIMER_WRITE (R195). -/
  | timerWrite (who : Writer) (n : Nat) (v : Word)
  /-- MCS_RELOAD_WRITE (R249). -/
  | mcsReloadWrite (who : Writer) (v : Word) (readBackOk : Bool)
  /-- SCN_BREAK_WRITE (R270). -/
  | scnBreakWrite (who : Writer) (v : Word)
  /-- PIP_ICINV (R184). -/
  | pipIcinv (who : Writer) (v : Word)
  /-- PIP_DCINV (R184). -/
  | pipDcinv (who : Writer) (v : Word)
  /-- PIP_BPINV (R184). -/
  | pipBpinv (who : Writer) (v : Word)
  /-- BEA_CMP_WRITE (R329). -/
  | beaCmpWrite (who : Writer) (m : Nat) (v : Word)
  /-- GOV_TDATA_WRITE (R348). -/
  | govTdataWrite (who : Writer) (v : Word)
  /-- FLT_CLR_WRITE (R465). -/
  | fltClrWrite (who : Writer) (v : Word)
  /-- DBG_VSTEP_WRITE (R441). -/
  | dbgVstepWrite (who : Writer) (v : Word)
  /-- LIT (R127). -/
  | lit (imm : BitVec 15)
  /-- CONDITIONAL_BRANCH (R129). -/
  | conditionalBranch (cond : BitVec 4) (annul : Bool) (disp : BitVec 9)
  /-- JMP (R130). -/
  | jmp (disp : BitVec 12)
  /-- CALL (R130). -/
  | call (disp : BitVec 12)
  /-- LD (R134). -/
  | ld (off : BitVec 8)
  /-- LDN (R134). -/
  | ldn (off : BitVec 8)
  /-- BIT_AND (R134). -/
  | bitAnd (off : BitVec 8)
  /-- BIT_ANDN (R134). -/
  | bitAndn (off : BitVec 8)
  /-- BIT_OR (R134). -/
  | bitOr (off : BitVec 8)
  /-- BIT_ORN (R134). -/
  | bitOrn (off : BitVec 8)
  /-- BIT_XOR (R134). -/
  | bitXor (off : BitVec 8)
  /-- PSH (R134). -/
  | psh (off : BitVec 8)
  /-- PSHN (R134). -/
  | pshn (off : BitVec 8)
  /-- ST (R134). -/
  | st (off : BitVec 8)
  /-- STN (R134). -/
  | stn (off : BitVec 8)
  /-- SET (R134). -/
  | set (off : BitVec 8)
  /-- RST (R134). -/
  | rst (off : BitVec 8)
  /-- EDGR (R134). -/
  | edgr (off : BitVec 8)
  /-- EDGF (R134). -/
  | edgf (off : BitVec 8)
  /-- TGL (R134). -/
  | tgl (off : BitVec 8)
  /-- ASR (R115). -/
  | asr (n : BitVec 6)
  /-- ASL (R115). -/
  | asl (n : BitVec 6)
  /-- LDW (R139). -/
  | ldw (sel : BitVec 3)
  /-- LDH (R139). -/
  | ldh (sel : BitVec 3)
  /-- LDHU (R139). -/
  | ldhu (sel : BitVec 3)
  /-- LDB (R139). -/
  | ldb (sel : BitVec 3)
  /-- LDBU (R139). -/
  | ldbu (sel : BitVec 3)
  /-- STW (R139). -/
  | stw (sel : BitVec 3)
  /-- STH (R139). -/
  | sth (sel : BitVec 3)
  /-- STB (R139). -/
  | stb (sel : BitVec 3)
  /-- XCHW (R141). -/
  | xchw (sel : BitVec 3)
  /-- CORRECTED_WRITEBACK (R258). -/
  | correctedWriteback (bank : Nat)
  /-- LOCK (R96). -/
  | lock (k : BitVec 3)
  /-- SIGNAL (R147). -/
  | signal (k : BitVec 3)
  /-- CHIME (R147). -/
  | chime (n : BitVec 5)
  /-- IMGSCAN (R152). -/
  | imgscan (stop : Option Nat)
  /-- IMGCMP (R152). -/
  | imgcmp (stop : Option Nat)
  /-- BLKMOV (R152). -/
  | blkmov (s : BitVec 3) (d : BitVec 3) (stop : Option Nat)
  /-- BLKFIL (R152). -/
  | blkfil (d : BitVec 3) (stop : Option Nat)
  /-- SEGLD (R102). -/
  | segld (n : BitVec 3)
  /-- SAVEL (R153). -/
  | savel (sel : BitVec 3) (stop : Option Nat)
  /-- SAVEU (R153). -/
  | saveu (sel : BitVec 3) (stop : Option Nat)
  /-- OEM_INSTRUCTION (R157). -/
  | oemInstruction (k : BitVec 8) (stop : Option Nat)
  /-- ILLEGAL_INSTRUCTION (R158). -/
  | illegalInstruction (w : BitVec 16)
  /-- FAULT_ENTRY (R215). -/
  | faultEntry (vec : Nat) (reason : Nat) (seg : Nat)
  /-- OPERAND_SPILL (R200). -/
  | operandSpill (words : Nat)
  /-- OPERAND_FILL (R200). -/
  | operandFill (words : Nat)
  /-- RETURN_SPILL (R200). -/
  | returnSpill (words : Nat)
  /-- RETURN_FILL (R200). -/
  | returnFill (words : Nat)
  /-- FP_OWNERSHIP_TRANSFER (R205). -/
  | fpOwnershipTransfer (stop : Option Nat)
  /-- INTERVAL_TIMER (R195). -/
  | intervalTimer (n : Nat)
  /-- MACHINE_CHECK_ENTRY (R228). -/
  | machineCheckEntry (readBackOk : Bool)
  /-- DATA_REQUEST (R304). -/
  | dataRequest (link : Nat) (stn : Nat)
  /-- IDENT_REQUEST (R304). -/
  | identRequest (link : Nat) (stn : Nat)
  /-- CONFIG_REQUEST (R304). -/
  | configRequest (link : Nat) (stn : Nat)
  /-- DATA_RESPONSE (R306). -/
  | dataResponse (link : Nat) (bytes : List Byte)
  /-- IDENT_RESPONSE (R304). -/
  | identResponse (link : Nat) (bytes : List Byte)
  /-- CONFIG_RESPONSE (R306). -/
  | configResponse (link : Nat) (bytes : List Byte)
  /-- RESPONSE_TIMEOUT (R305). -/
  | responseTimeout (link : Nat)
  /-- HELD_FRAME_BURST (R272). -/
  | heldFrameBurst (link : Nat)
  /-- MAINS_EDGE (R323). -/
  | mainsEdge (n : Nat) (cycles : Nat)
  /-- MISSING_EDGE_LOCK_LOSS (R324). -/
  | missingEdgeLockLoss (n : Nat)
  /-- ENCODER_TRANSITION (R325). -/
  | encoderTransition (n : Nat) (a : Bool) (b : Bool)
  /-- INDEX_EDGE (R325). -/
  | indexEdge (n : Nat)
  /-- COMPARE_MATCH (R327). -/
  | compareMatch (m : Nat) (rev : Bool)
  /-- STROBE_START (R334). -/
  | strobeStart (m : Nat) (link : Nat)
  /-- STROBE_END (R333). -/
  | strobeEnd (m : Nat) (link : Nat)
  /-- STROBE_FALLBACK (R335). -/
  | strobeFallback (k : Nat)
  /-- MEMBER_SAFE_TIMEOUT (R338). -/
  | memberSafeTimeout (link : Nat) (stn : Nat)
  /-- DELTA_RECEIVED (R380). -/
  | deltaReceived (seq : Nat) (cyc : Nat) (ws : List DWord)
  /-- REL_RECEIVED (R381). -/
  | relReceived (seq : Nat) (cyc : Nat) (ws : List DWord)
  /-- HZN_RECEIVED (R382). -/
  | hznReceived (seq : Nat) (cyc : Nat) (ws : List DWord)
  /-- HK_RECEIVED (R384). -/
  | hkReceived (seq : Nat) (cyc : Nat) (last : Bool) (ws : List DWord)
  /-- STATE_RECEIVED (R387). -/
  | stateReceived (seq : Nat) (cyc : Nat) (ws : List DWord)
  /-- FAIL_RECEIVED (R388). -/
  | failReceived (seq : Nat) (cyc : Nat) (ws : List DWord)
  /-- KEEP_RECEIVED (R376). -/
  | keepReceived (seq : Nat) (cyc : Nat) (ws : List DWord)
  /-- HELLO_RECEIVED (R387). -/
  | helloReceived (seq : Nat) (cyc : Nat) (ws : List DWord)
  /-- STATUS_RECEIVED (R377). -/
  | statusReceived (seq : Nat) (cyc : Nat) (ws : List DWord)
  /-- TAKEN_RECEIVED (R391). -/
  | takenReceived (seq : Nat) (cyc : Nat) (ws : List DWord)
  /-- TOKEN_RECEIVED (R395). -/
  | tokenReceived (orig : Nat) (rnd : Nat) (valid : Nat)
  /-- SLOT_RECEIVED (R394). -/
  | slotReceived (orig : Nat) (rnd : Nat) (ws : List DWord)
  /-- CLAP_SYNC (R426). -/
  | clapSync (lowNs : Nat)
  /-- CLAP_BAD_REQUEST (R428). -/
  | clapBadRequest (seq : Nat)
  /-- DBG_ID (R427). -/
  | dbgId (seq : Nat)
  /-- DBG_STATUS (R427). -/
  | dbgStatus (seq : Nat)
  /-- DBG_READ (R432). -/
  | dbgRead (seq : Nat) (space : Nat) (addr : Nat)
  /-- DBG_READ_LIVE (R433). -/
  | dbgReadLive (seq : Nat) (space : Nat) (addr : Nat)
  /-- DBG_WRITE (R434). -/
  | dbgWrite (seq : Nat) (space : Nat) (addr : Nat) (v : Word)
  /-- DBG_HALT (R435). -/
  | dbgHalt (seq : Nat)
  /-- DBG_RESUME (R438). -/
  | dbgResume (seq : Nat)
  /-- DBG_STEP (R437). -/
  | dbgStep (seq : Nat)
  /-- CLASS_LASTING_END (R457). -/
  | classLastingEnd (c : Nat) (stn : Nat)
  /-- POR_N_RELEASE (R54). -/
  | porNRelease (chainId : BitVec 3) (pairRole : Bool)
  /-- PWR_ACK_UNREQUESTED_FALL (R49). -/
  | pwrAckUnrequestedFall (pd : Nat)
  /-- POR_N_ASSERT (R54). -/
  | porNAssert
  /-- CLAP_RESET (R38). -/
  | clapReset
  /-- PFAIL_N_FALL (R52). -/
  | pfailNFall
  /-- PFAIL_N_RECOVERY (R52). -/
  | pfailNRecovery
  /-- SLEEP_POWER_DOWN (R53). -/
  | sleepPowerDown
  /-- KEEPER_ALARM (R53). -/
  | keeperAlarm
  /-- CLOCK_CHECK_FAILURE (R64). -/
  | clockCheckFailure
  /-- BANK_CLEAR (R65). -/
  | bankClear
  /-- PATCH_FETCH_TIMEOUT (R68). -/
  | patchFetchTimeout
  /-- CODE_BANK_VERIFICATION (R77). -/
  | codeBankVerification
  /-- STEP_FAILURE_RESET (R82). -/
  | stepFailureReset
  /-- SLOT_INTERPRETATION (R410). -/
  | slotInterpretation
  /-- PING (R413). -/
  | ping
  /-- GET_INFO (R414). -/
  | getInfo
  /-- SET_MODE (R415). -/
  | setMode
  /-- GET_STATUS (R414). -/
  | getStatus
  /-- LOAD_CODE (R352). -/
  | loadCode
  /-- CODE_LOAD_COMPLETE (R352). -/
  | codeLoadComplete
  /-- VERIFY_CODE (R353). -/
  | verifyCode
  /-- DIGEST_COMPLETE (R353). -/
  | digestComplete
  /-- COMMIT_GENERATION (R355). -/
  | commitGeneration
  /-- COMMIT_TIMEOUT (R357). -/
  | commitTimeout
  /-- ABORT_GENERATION (R357). -/
  | abortGeneration
  /-- PATCH_CONST (R368). -/
  | patchConst
  /-- LOAD_PATCH (R68). -/
  | loadPatch
  /-- START_RECORD_RESTORE (R84). -/
  | startRecordRestore
  /-- START_RECORD_READ (R85). -/
  | startRecordRead
  /-- FORCE_SET (R284). -/
  | forceSet
  /-- FORCE_CLEAR (R284). -/
  | forceClear
  /-- FORCE_LIST (R416). -/
  | forceList
  /-- STATION_CONFIG (R303). -/
  | stationConfig
  /-- STATION_FEED (R313). -/
  | stationFeed
  /-- STATION_STATUS (R317). -/
  | stationStatus
  /-- BEAT_CONFIG (R345). -/
  | beatConfig
  /-- GOVERNOR_CONFIG (R345). -/
  | governorConfig
  /-- STANDBY_CONFIG (R400). -/
  | standbyConfig
  /-- TAKEOVER (R400). -/
  | takeover
  /-- CHAIN_CONFIG (R400). -/
  | chainConfig
  /-- LOG_FREEZE (R452). -/
  | logFreeze
  /-- LOG_READ (R454). -/
  | logRead
  /-- LOG_CLEAR (R455). -/
  | logClear
  /-- LOG_THAW (R453). -/
  | logThaw
  /-- DEBUG_GRANT (R431). -/
  | debugGrant
  /-- EXPERT_CHALLENGE (R418). -/
  | expertChallenge
  /-- EXPERT_UNLOCK (R418). -/
  | expertUnlock
  /-- EXPERT_LOCK (R418). -/
  | expertLock
  /-- EXPERT_EXPIRY (R418). -/
  | expertExpiry
  /-- POWER_STATE (R419). -/
  | powerState
  /-- BLOCK_SLEEP (R53). -/
  | blockSleep
  /-- FAULT_COUNTERS (R461). -/
  | faultCounters
  /-- NOP (R137). -/
  | nop
  /-- DROP (R137). -/
  | drop
  /-- DUP (R137). -/
  | dup
  /-- SWAP (R137). -/
  | swap
  /-- OVER (R137). -/
  | over
  /-- ROT (R137). -/
  | rot
  /-- NROT (R137). -/
  | nrot
  /-- NIP (R137). -/
  | nip
  /-- TUCK (R137). -/
  | tuck
  /-- DUP2 (R137). -/
  | dup2
  /-- DROP2 (R137). -/
  | drop2
  /-- DEPTH (R137). -/
  | depth
  /-- TOR (R137). -/
  | tor
  /-- FROMR (R137). -/
  | fromr
  /-- RFETCH (R137). -/
  | rfetch
  /-- ADD (R112). -/
  | add
  /-- SUB (R112). -/
  | sub
  /-- ADDS (R112). -/
  | adds
  /-- SUBS (R112). -/
  | subs
  /-- ADC (R137). -/
  | adc
  /-- SBC (R137). -/
  | sbc
  /-- NEG (R112). -/
  | neg
  /-- NEGS (R112). -/
  | negs
  /-- CMP (R137). -/
  | cmp
  /-- TST (R137). -/
  | tst
  /-- MIN (R137). -/
  | min
  /-- MAX (R137). -/
  | max
  /-- MUL (R112). -/
  | mul
  /-- MULH (R137). -/
  | mulh
  /-- MULHU (R137). -/
  | mulhu
  /-- DIV (R114). -/
  | div
  /-- DIVS (R114). -/
  | divs
  /-- DIVU (R114). -/
  | divu
  /-- REM (R114). -/
  | rem
  /-- REMU (R114). -/
  | remu
  /-- AND (R137). -/
  | and
  /-- OR (R137). -/
  | or
  /-- XOR (R137). -/
  | xor
  /-- NOT (R137). -/
  | not
  /-- SXB (R137). -/
  | sxb
  /-- SXH (R137). -/
  | sxh
  /-- ZXB (R137). -/
  | zxb
  /-- ZXH (R137). -/
  | zxh
  /-- CLZ (R137). -/
  | clz
  /-- LCAT (R127). -/
  | lcat
  /-- SHL (R113). -/
  | shl
  /-- SHR (R113). -/
  | shr
  /-- SAR (R113). -/
  | sar
  /-- ROR (R137). -/
  | ror
  /-- SEQ (R137). -/
  | seq
  /-- SNE (R137). -/
  | sne
  /-- SLT (R137). -/
  | slt
  /-- SLE (R137). -/
  | sle
  /-- SGT (R137). -/
  | sgt
  /-- SGE (R137). -/
  | sge
  /-- SLTU (R137). -/
  | sltu
  /-- SGEU (R137). -/
  | sgeu
  /-- GETSW (R137). -/
  | getsw
  /-- SETSW (R95). -/
  | setsw
  /-- GETIW (R137). -/
  | getiw
  /-- SETIW (R107). -/
  | setiw
  /-- LATOS (R137). -/
  | latos
  /-- TOSLA (R137). -/
  | tosla
  /-- LPUSH (R93). -/
  | lpush
  /-- LPOP (R93). -/
  | lpop
  /-- LANDP (R137). -/
  | landp
  /-- LORP (R137). -/
  | lorp
  /-- LXORP (R137). -/
  | lxorp
  /-- LNOT (R137). -/
  | lnot
  /-- LSET (R137). -/
  | lset
  /-- LCLR (R137). -/
  | lclr
  /-- ACLR (R115). -/
  | aclr
  /-- ALD (R115). -/
  | ald
  /-- AADD (R138). -/
  | aadd
  /-- AADDS (R138). -/
  | aadds
  /-- MAC (R115). -/
  | mac
  /-- MSU (R115). -/
  | msu
  /-- MACS (R115). -/
  | macs
  /-- MSUS (R115). -/
  | msus
  /-- QMUL (R115). -/
  | qmul
  /-- EXTQ (R118). -/
  | extq
  /-- EXTQS (R118). -/
  | extqs
  /-- EXTI (R118). -/
  | exti
  /-- APUSH (R115). -/
  | apush
  /-- APOP (R115). -/
  | apop
  /-- PARTIAL_OVERLAP_RELAUNCH (R167). -/
  | partialOverlapRelaunch
  /-- UNCACHED_LOAD_RETURN (R168). -/
  | uncachedLoadReturn
  /-- LINE_FILL_COMPLETE (R170). -/
  | lineFillComplete
  /-- STORE_DRAIN (R166). -/
  | storeDrain
  /-- PATROL_SCRUB (R259). -/
  | patrolScrub
  /-- RET (R130). -/
  | ret
  /-- RETI (R143). -/
  | reti
  /-- JMPI (R130). -/
  | jmpi
  /-- CALLI (R130). -/
  | calli
  /-- END_SCAN (R145). -/
  | endScan
  /-- ENDT (R145). -/
  | endt
  /-- NETG (R279). -/
  | netg
  /-- BRK (R142). -/
  | brk
  /-- FADD (R148). -/
  | fadd
  /-- FSUB (R148). -/
  | fsub
  /-- FMUL (R148). -/
  | fmul
  /-- FDIV (R148). -/
  | fdiv
  /-- FSQRT (R148). -/
  | fsqrt
  /-- FNEG (R148). -/
  | fneg
  /-- FABS (R148). -/
  | fabs
  /-- FCMP (R121). -/
  | fcmp
  /-- FDUP (R148). -/
  | fdup
  /-- FDROP (R148). -/
  | fdrop
  /-- FSWAP (R148). -/
  | fswap
  /-- FOVER (R148). -/
  | fover
  /-- FITOF (R123). -/
  | fitof
  /-- FFTOI (R123). -/
  | fftoi
  /-- FMOVI (R123). -/
  | fmovi
  /-- FMOVO (R123). -/
  | fmovo
  /-- FGETSW (R148). -/
  | fgetsw
  /-- FSETSW (R148). -/
  | fsetsw
  /-- FPIN (R207). -/
  | fpin
  /-- FUNPIN (R207). -/
  | funpin
  /-- VLD (R149). -/
  | vld
  /-- VST (R149). -/
  | vst
  /-- VSET (R149). -/
  | vset
  /-- VCLR (R149). -/
  | vclr
  /-- VTST (R149). -/
  | vtst
  /-- VCNT (R149). -/
  | vcnt
  /-- CREL (R154). -/
  | crel
  /-- CHLT (R190). -/
  | chlt
  /-- CSTAT (R210). -/
  | cstat
  /-- CPRIO (R154). -/
  | cprio
  /-- IMB (R179). -/
  | imb
  /-- RDICNT (R154). -/
  | rdicnt
  /-- RDCYC (R154). -/
  | rdcyc
  /-- RDTIME (R154). -/
  | rdtime
  /-- EVOUT (R154). -/
  | evout
  /-- EVOGET (R154). -/
  | evoget
  /-- LATCH_TAKE (R193). -/
  | latchTake
  /-- CONTEXT_SWITCH (R197). -/
  | contextSwitch
  /-- LANTERN_SHARE_SLOT (R199). -/
  | lanternShareSlot
  /-- LOCK_OVERRUN (R144). -/
  | lockOverrun
  /-- MASK_OVERRUN (R224). -/
  | maskOverrun
  /-- MCS_SCRUB (R252). -/
  | mcsScrub
  /-- PREEMPTION_ENTRY_APPLY (R381). -/
  | preemptionEntryApply
  /-- CYCLE_START (R276). -/
  | cycleStart
  /-- INPUT_TRANSFER_END (R271). -/
  | inputTransferEnd
  /-- OUTPUT_TRANSFER_END (R274). -/
  | outputTransferEnd
  /-- HOUSEKEEPING_SLOT (R275). -/
  | housekeepingSlot
  /-- CYCLE_WATCHDOG_EXPIRY (R287). -/
  | cycleWatchdogExpiry
  /-- WATCHDOG_GRACE_EXPIRY (R287). -/
  | watchdogGraceExpiry
  /-- CYCLE_WARNING (R288). -/
  | cycleWarning
  /-- IDLE_SAG_CHECK (R342). -/
  | idleSagCheck
  /-- BEACON_RXLOCK (R374). -/
  | beaconRxlock
  /-- BEACON_BAD_FRAME (R375). -/
  | beaconBadFrame
  /-- KEEP_SEND (R376). -/
  | keepSend
  /-- HELLO_SEND (R376). -/
  | helloSend
  /-- STATUS_SEND (R377). -/
  | statusSend
  /-- HZN_SEND (R382). -/
  | hznSend
  /-- CONVERGE_PASS_COMPLETE (R387). -/
  | convergePassComplete
  /-- RESYNC_RETRY (R387). -/
  | resyncRetry
  /-- TAKEOVER_SILENCE (R388). -/
  | takeoverSilence
  /-- BUS_GUARD_TIMEOUT (R389). -/
  | busGuardTimeout
  /-- CHAIN_BAD_FRAME (R394). -/
  | chainBadFrame
  /-- SLOT_WAIT_TIMEOUT (R395). -/
  | slotWaitTimeout
  /-- TOKEN_TIMEOUT (R395). -/
  | tokenTimeout
  /-- CLAP_BREAK (R426). -/
  | clapBreak
  /-- CLAP_IDLE_TIMEOUT (R426). -/
  | clapIdleTimeout
  /-- DEBUG_HALT_TAKEN (R435). -/
  | debugHaltTaken
  /-- STEP_COMPLETE (R437). -/
  | stepComplete
  /-- LOG_APPEND (R451). -/
  | logAppend
  /-- WATCHDOG_WARNING (R462). -/
  | watchdogWarning
  /-- WATCHDOG_EXPIRY (R462). -/
  | watchdogExpiry
  /-- BEACON_RXLOCK_LOSS (R374). -/
  | beaconRxlockLoss
  /-- CHAIN_RXLOCK (R393). -/
  | chainRxlock
  /-- CHAIN_RXLOCK_LOSS (R393). -/
  | chainRxlockLoss
  /-- BUS_GUARD_CLEAR (R389). -/
  | busGuardClear
  /-- BULK_PHASE_COMPLETE (R387). -/
  | bulkPhaseComplete
  deriving DecidableEq, Repr

end Sys2Proof
end

