-- ==== Sys2Proof/WellFormed.lean ====
section
/-! DEFINITION. Which terms of Instr are commands that the block can be given: every operand within the range that the
spec gives it. -/

namespace Sys2Proof

/-- A switchable power domain (R14). -/
def pdOk (n : Nat) : Bool := decide (1 ≤ n) && decide (n ≤ 11)

/-- One count of 24 bits for each of the seven measured clocks (R44). -/
def countsOk (l : List Nat) : Bool := decide (l.length = 7) && l.all fun n => decide (n < 2 ^ 24)

/-- A source that ends block sleep: EVT_IN 12 to 15, or CLAP_I (R53). -/
def WakeSrc.wf : WakeSrc → Bool
  | .evtIn k => decide (12 ≤ k) && decide (k ≤ 15)
  | .clap => true

/-- A word of a register page (R20). -/
def regOk (a : Nat) : Bool := decide (0x780000 ≤ a) && decide (a < 0x794000) && decide (a % 4 = 0)

/-- Words of one half of a spill or fill, or of both (R200). -/
def halfOk (n : Nat) : Bool := n == 4 || n == 8

/-- A safe point, counted from 1. -/
def stopOk (o : Option Nat) : Bool := o.all fun n => decide (1 ≤ n)

/-- A shift count of ASR and ASL (R138). -/
def shiftOk (n : BitVec 6) : Bool := decide (1 ≤ n.toNat) && decide (n.toNat ≤ 39)

/-- A field link, a station address, a Beat source (R295, R322). -/
def linkOk (n : Nat) : Bool := decide (n < 8)
def stnOk (n : Nat) : Bool := decide (n < 32)
def srcOk (n : Nat) : Bool := decide (n < 4)

/-- A Beacon frame's SEQ, CYC and payload (R375). -/
def frameOk (seq cyc : Nat) (ws : List DWord) : Bool :=
  decide (seq < 2 ^ 16) && decide (cyc < 2 ^ 16) && decide (ws.length ≤ 1024)

/-- SEQ, and the space and address, of a debugger's request (R427, R432). -/
def seqOk (n : Nat) : Bool := decide (n < 16)
def spaceOk (space addr : Nat) : Bool := decide (space < 16) && decide (addr < 2 ^ 28)

/-- Every operand is in range. -/
def Instr.wf : Instr → Bool
  | .pwrAckRise a => pdOk a
  | .domainReady a => pdOk a
  | .pwrAckFall a => pdOk a
  | .ackTimeout a => pdOk a
  | .dozeEntry a => pdOk a
  | .sleepWake a => a.wf
  | .clockLoss a => decide (a < 8)
  | .measurementWindow a => countsOk a
  | .evtInEdge a => decide (a < 16)
  | .clockCheckPass a => countsOk a
  | .authenticateAndDecrypt a => decide (a < 4)
  | .bankBist a _ => decide (a < 4096)
  | .hostRead a => decide (a < 2 ^ 20)
  | .hostWrite a _ c => decide (a < 2 ^ 20) && decide (c < 16)
  | .registerWrite _ b _ => regOk b
  | .replyStatusRead _ b => decide (b < 16)
  | .carPrioWrite _ b _ => decide (b < 64)
  | .timerWrite _ b _ => decide (b < 16)
  | .beaCmpWrite _ b _ => decide (b < 16)
  | .asr a => shiftOk a
  | .asl a => shiftOk a
  | .correctedWriteback a => decide (a < 16)
  | .imgscan a => stopOk a
  | .imgcmp a => stopOk a
  | .blkmov _ _ c => stopOk c
  | .blkfil _ b => stopOk b
  | .segld a => decide (a ≠ 0)
  | .savel _ b => stopOk b
  | .saveu _ b => stopOk b
  | .oemInstruction _ b => stopOk b
  | .faultEntry a b c => decide (a < 32) && decide (b < 16) && decide (c < 16)
  | .operandSpill a => halfOk a
  | .operandFill a => halfOk a
  | .returnSpill a => halfOk a
  | .returnFill a => halfOk a
  | .fpOwnershipTransfer a => stopOk a && decide (a.getD 0 < 4)
  | .intervalTimer a => decide (a < 16)
  | .dataRequest a b => linkOk a && stnOk b
  | .identRequest a b => linkOk a && stnOk b
  | .configRequest a b => linkOk a && stnOk b
  | .dataResponse a _ => linkOk a
  | .identResponse a _ => linkOk a
  | .configResponse a _ => linkOk a
  | .responseTimeout a => linkOk a
  | .heldFrameBurst a => linkOk a
  | .mainsEdge a _ => srcOk a
  | .missingEdgeLockLoss a => srcOk a
  | .encoderTransition a _ _ => srcOk a
  | .indexEdge a => srcOk a
  | .compareMatch a _ => decide (a < 16)
  | .strobeStart a b => decide (a < 16) && linkOk b
  | .strobeEnd a b => decide (a < 16) && linkOk b
  | .strobeFallback a => decide (a < 256)
  | .memberSafeTimeout a b => linkOk a && stnOk b
  | .deltaReceived a b c => frameOk a b c
  | .relReceived a b c => frameOk a b c
  | .hznReceived a b c => frameOk a b c
  | .hkReceived a b _ d => frameOk a b d
  | .stateReceived a b c => frameOk a b c
  | .failReceived a b c => frameOk a b c
  | .keepReceived a b c => frameOk a b c
  | .helloReceived a b c => frameOk a b c
  | .statusReceived a b c => frameOk a b c
  | .takenReceived a b c => frameOk a b c
  | .tokenReceived a b c => decide (a < 8) && decide (b < 2 ^ 32) && decide (c < 256)
  | .slotReceived a b _ => decide (a < 8) && decide (b < 2 ^ 32)
  | .clapBadRequest a => seqOk a
  | .dbgId a => seqOk a
  | .dbgStatus a => seqOk a
  | .dbgRead a b c => seqOk a && spaceOk b c
  | .dbgReadLive a b c => seqOk a && spaceOk b c
  | .dbgWrite a b c _ => seqOk a && spaceOk b c
  | .dbgHalt a => seqOk a
  | .dbgResume a => seqOk a
  | .dbgStep a => seqOk a
  | .classLastingEnd a b => decide (a < 32) && decide (b < 512)
  | .pwrAckUnrequestedFall a => pdOk a
  | .porNAssert | .clapReset | .pwrRstBlock _ _ | .pwrRstDomain _ _ | .pwrCtrlRequest _ _ | .pwrCtrlSleep _ _
  | .pfailNFall | .pfailNRecovery | .sleepPowerDown | .keeperAlarm | .clockCheckFailure | .bankClear
  | .baseControlStoreLoad _ | .patchFetchTimeout | .applyPatch _ | .codeBankVerification | .stepFailureReset
  | .strClearWrite _ _ | .doorbellSubmit _ _ | .doorbellRing _ _ | .clkTimeloRead _ | .slotInterpretation | .ping
  | .getInfo | .setMode | .getStatus | .loadCode | .codeLoadComplete | .verifyCode | .digestComplete
  | .commitGeneration | .commitTimeout | .abortGeneration | .patchConst | .loadPatch | .startRecordRestore
  | .startRecordRead | .forceSet | .forceClear | .forceList | .stationConfig | .stationFeed | .stationStatus
  | .beatConfig | .governorConfig | .standbyConfig | .takeover | .chainConfig | .logFreeze | .logRead | .logClear
  | .logThaw | .debugGrant | .expertChallenge | .expertUnlock | .expertLock | .expertExpiry | .powerState
  | .blockSleep | .faultCounters | .carCinitWrite _ _ | .mcsReloadWrite _ _ _ | .scnBreakWrite _ _ | .pipIcinv _ _
  | .pipDcinv _ _ | .pipBpinv _ _ | .govTdataWrite _ _ | .fltClrWrite _ _ | .dbgVstepWrite _ _ | .lit _
  | .conditionalBranch _ _ _ | .jmp _ | .call _ | .ld _ | .ldn _ | .bitAnd _ | .bitAndn _ | .bitOr _ | .bitOrn _
  | .bitXor _ | .psh _ | .pshn _ | .st _ | .stn _ | .set _ | .rst _ | .edgr _ | .edgf _ | .tgl _ | .nop | .drop
  | .dup | .swap | .over | .rot | .nrot | .nip | .tuck | .dup2 | .drop2 | .depth | .tor | .fromr | .rfetch | .add
  | .sub | .adds | .subs | .adc | .sbc | .neg | .negs | .cmp | .tst | .min | .max | .mul | .mulh | .mulhu | .div
  | .divs | .divu | .rem | .remu | .and | .or | .xor | .not | .sxb | .sxh | .zxb | .zxh | .clz | .lcat | .shl | .shr
  | .sar | .ror | .seq | .sne | .slt | .sle | .sgt | .sge | .sltu | .sgeu | .getsw | .setsw | .getiw | .setiw
  | .latos | .tosla | .lpush | .lpop | .landp | .lorp | .lxorp | .lnot | .lset | .lclr | .aclr | .ald | .aadd
  | .aadds | .mac | .msu | .macs | .msus | .qmul | .extq | .extqs | .exti | .apush | .apop | .ldw _ | .ldh _
  | .ldhu _ | .ldb _ | .ldbu _ | .stw _ | .sth _ | .stb _ | .xchw _ | .partialOverlapRelaunch | .uncachedLoadReturn
  | .lineFillComplete | .storeDrain | .patrolScrub | .ret | .reti | .jmpi | .calli | .lock _ | .signal _ | .endScan
  | .endt | .netg | .brk | .chime _ | .fadd | .fsub | .fmul | .fdiv | .fsqrt | .fneg | .fabs | .fcmp | .fdup | .fdrop
  | .fswap | .fover | .fitof | .fftoi | .fmovi | .fmovo | .fgetsw | .fsetsw | .fpin | .funpin | .vld | .vst | .vset
  | .vclr | .vtst | .vcnt | .crel | .chlt | .cstat | .cprio | .imb | .rdicnt | .rdcyc | .rdtime | .evout | .evoget
  | .illegalInstruction _ | .latchTake | .contextSwitch | .lanternShareSlot | .lockOverrun | .maskOverrun
  | .machineCheckEntry _ | .mcsScrub | .preemptionEntryApply | .cycleStart | .inputTransferEnd | .outputTransferEnd
  | .housekeepingSlot | .cycleWatchdogExpiry | .watchdogGraceExpiry | .cycleWarning | .idleSagCheck | .beaconRxlock
  | .beaconBadFrame | .keepSend | .helloSend | .statusSend | .hznSend | .convergePassComplete | .resyncRetry
  | .takeoverSilence | .busGuardTimeout | .chainBadFrame | .slotWaitTimeout | .tokenTimeout | .clapSync _
  | .clapBreak | .clapIdleTimeout | .debugHaltTaken | .stepComplete | .logAppend | .watchdogWarning | .watchdogExpiry
  | .porNRelease _ _ | .beaconRxlockLoss | .chainRxlock | .chainRxlockLoss | .busGuardClear | .bulkPhaseComplete => true

end Sys2Proof
end

