-- ==== Sys2Proof/Decode.lean ====
section
/-! DEFINITION. The commands that words spell. No row of spec/opcode_table.json gives a command bits; the words of the core's
instructions are read by the tables of the instruction set (R125, R137 to R157). -/

namespace Sys2Proof

/-- The command that a word of `nbits` bits spells: none, as the table gives no row any bits. -/
def decodeTableWord (_nbits _w : Nat) : Option Instr := none

/-! ### Instruction words (R125) -/

/-- Stack, ALU and logic stack (R137). -/
def stackAluCodes : List (Nat × Instr) :=
  [(0x0000, .nop), (0x0001, .drop), (0x0002, .dup), (0x0003, .swap), (0x0004, .over), (0x0005, .rot), (0x0006, .nrot),
   (0x0007, .nip), (0x0008, .tuck), (0x0009, .dup2), (0x000A, .drop2), (0x000B, .depth), (0x000C, .tor),
   (0x000D, .fromr), (0x000E, .rfetch), (0x0010, .add), (0x0011, .sub), (0x0012, .adds), (0x0013, .subs),
   (0x0014, .adc), (0x0015, .sbc), (0x0016, .neg), (0x0017, .negs), (0x0018, .cmp), (0x0019, .tst), (0x001A, .min),
   (0x001B, .max), (0x0020, .mul), (0x0021, .mulh), (0x0022, .mulhu), (0x0024, .div), (0x0025, .divs), (0x0026, .divu),
   (0x0027, .rem), (0x0028, .remu), (0x0030, .and), (0x0031, .or), (0x0032, .xor), (0x0033, .not), (0x0034, .sxb),
   (0x0035, .sxh), (0x0036, .zxb), (0x0037, .zxh), (0x0038, .clz), (0x0039, .lcat), (0x0040, .shl), (0x0041, .shr),
   (0x0042, .sar), (0x0043, .ror), (0x0048, .seq), (0x0049, .sne), (0x004A, .slt), (0x004B, .sle), (0x004C, .sgt),
   (0x004D, .sge), (0x004E, .sltu), (0x004F, .sgeu), (0x0050, .getsw), (0x0051, .setsw), (0x0052, .getiw),
   (0x0053, .setiw), (0x0058, .latos), (0x0059, .tosla), (0x005A, .lpush), (0x005B, .lpop), (0x005C, .landp),
   (0x005D, .lorp), (0x005E, .lxorp), (0x005F, .lnot), (0x0060, .lset), (0x0061, .lclr)]

/-- Fixed point and accumulator (R138). -/
def accCodes : List (Nat × Instr) :=
  [(0x0100, .aclr), (0x0101, .ald), (0x0102, .aadd), (0x0103, .aadds), (0x0104, .mac), (0x0105, .msu), (0x0106, .macs),
   (0x0107, .msus), (0x0108, .qmul), (0x0109, .extq), (0x010A, .extqs), (0x010B, .exti), (0x010C, .apush),
   (0x010D, .apop)]

/-- Control (R142, R143, R145, R146). -/
def controlCodes : List (Nat × Instr) :=
  [(0x0300, .ret), (0x0301, .reti), (0x0302, .jmpi), (0x0303, .calli), (0x0318, .endScan), (0x0319, .endt),
   (0x031A, .netg), (0x031B, .brk)]

/-- Floating point (R148). -/
def fpCodes : List (Nat × Instr) :=
  [(0x0400, .fadd), (0x0401, .fsub), (0x0402, .fmul), (0x0403, .fdiv), (0x0404, .fsqrt), (0x0405, .fneg),
   (0x0406, .fabs), (0x0407, .fcmp), (0x0408, .fdup), (0x0409, .fdrop), (0x040A, .fswap), (0x040B, .fover),
   (0x0410, .fitof), (0x0411, .fftoi), (0x0412, .fmovi), (0x0413, .fmovo), (0x0418, .fgetsw), (0x0419, .fsetsw),
   (0x0420, .fpin), (0x0421, .funpin)]

/-- Vector image and long resumable instructions (R149, R152). -/
def imageCodes : List (Nat × Instr) :=
  [(0x0500, .vld), (0x0501, .vst), (0x0502, .vset), (0x0503, .vclr), (0x0504, .vtst), (0x0505, .vcnt),
   (0x0510, .imgscan none), (0x0511, .imgcmp none)]

/-- System instructions (R154). -/
def systemCodes : List (Nat × Instr) :=
  [(0x0610, .crel), (0x0611, .chlt), (0x0612, .cstat), (0x0613, .cprio), (0x0618, .imb), (0x0628, .rdicnt),
   (0x0629, .rdcyc), (0x062A, .rdtime), (0x0630, .evout), (0x0631, .evoget)]

/-- The bit instruction of an operation (R134). -/
def bitInsn (op : Nat) (off : BitVec 8) : Instr :=
  match op with
  | 0 => .ld off
  | 1 => .ldn off
  | 2 => .bitAnd off
  | 3 => .bitAndn off
  | 4 => .bitOr off
  | 5 => .bitOrn off
  | 6 => .bitXor off
  | 7 => .psh off
  | 8 => .pshn off
  | 9 => .st off
  | 10 => .stn off
  | 11 => .set off
  | 12 => .rst off
  | 13 => .edgr off
  | 14 => .edgf off
  | _ => .tgl off

/-- The load or store of an operation and a selector (R139). -/
def loadStoreInsn (op : Nat) (sel : BitVec 3) : Option Instr :=
  match op with
  | 0 => some (.ldw sel)
  | 1 => some (.ldh sel)
  | 2 => some (.ldhu sel)
  | 3 => some (.ldb sel)
  | 4 => some (.ldbu sel)
  | 5 => some (.stw sel)
  | 6 => some (.sth sel)
  | 7 => some (.stb sel)
  | 8 => some (.xchw sel)
  | _ => none

/-- The codes of the zero-operand group that carry a number: a shift count, a selector, a context's chime, an OEM code. Long
instructions are read as ones that nothing suspends. -/
def numberedInsn (c : Nat) : Option Instr :=
  let sel : BitVec 3 := BitVec.ofNat 3 c
  if 0x141 ≤ c ∧ c ≤ 0x167 then some (.asr (BitVec.ofNat 6 (c - 0x140)))
  else if 0x181 ≤ c ∧ c ≤ 0x1A7 then some (.asl (BitVec.ofNat 6 (c - 0x180)))
  else if 0x200 ≤ c ∧ c ≤ 0x247 then loadStoreInsn ((c - 0x200) / 8) sel
  else if 0x308 ≤ c ∧ c ≤ 0x30F then some (.lock sel)
  else if 0x310 ≤ c ∧ c ≤ 0x317 then some (.signal sel)
  else if 0x320 ≤ c ∧ c ≤ 0x33F then some (.chime (BitVec.ofNat 5 c))
  else if 0x540 ≤ c ∧ c ≤ 0x57F then some (.blkmov (BitVec.ofNat 3 (c / 8)) sel none)
  else if 0x580 ≤ c ∧ c ≤ 0x587 then some (.blkfil sel none)
  else if 0x601 ≤ c ∧ c ≤ 0x607 then some (.segld sel)
  else if 0x640 ≤ c ∧ c ≤ 0x647 then some (.savel sel none)
  else if 0x648 ≤ c ∧ c ≤ 0x64F then some (.saveu sel none)
  else if 0xF00 ≤ c ∧ c ≤ 0xFFF then some (.oemInstruction (BitVec.ofNat 8 c) none)
  else none

/-- The instruction of a code of the zero-operand group, if it is assigned (R136, R158). -/
def zeroOperandInsn (c : Nat) : Option Instr :=
  ((stackAluCodes ++ accCodes ++ controlCodes ++ fpCodes ++ imageCodes ++ systemCodes).find? fun e => e.1 == c).map (·.2)
    |>.orElse fun _ => numberedInsn c

/-- The instruction that a word is; an unassigned code is an illegal instruction (R125). -/
def decodeInsn (w : BitVec 16) : Instr :=
  if w.getLsbD 15 then .lit (w.extractLsb' 0 15)
  else if w.getLsbD 14 then .conditionalBranch (w.extractLsb' 10 4) (w.getLsbD 9) (w.extractLsb' 0 9)
  else if w.getLsbD 13 then
    if w.getLsbD 12 then .call (w.extractLsb' 0 12) else .jmp (w.extractLsb' 0 12)
  else if w.getLsbD 12 then bitInsn (w.extractLsb' 8 4).toNat (w.extractLsb' 0 8)
  else (zeroOperandInsn w.toNat).getD (.illegalInstruction w)

end Sys2Proof
end

