-- ==== Sys2Proof/Config.lean ====
section
/-! DEFINITION. What an implementation fixes and what the spec leaves open: constants without a body, of which nothing
can be proved but what holds for every value. -/

namespace Sys2Proof.Config

/-- The syndrome of an error found at a 64-bit word (R257: not 0, and not to be relied on); used modulo 255, plus 1. -/
opaque syndrome : Nat → Nat

/-- FLT_CNTc.N of a class that counts by station (R460 gives the count of each station, not of the class), by class and
faults counted. -/
opaque stationClassN : Nat → Nat → Nat

/-- SYS_ID.STEPPING and SYS_VER.ROMVER, which are per silicon and per boot ROM (R87). -/
opaque stepping : Nat
opaque romVersion : Nat

/-- The contents of the boot ROM by offset, and the bytes of its key-derivation constant (R66). -/
opaque romByte : Nat → Byte
opaque keyConstant : Nat → Byte

/-- Byte i of the digest that the key port holds in a slot (R69). -/
opaque keyByte : Nat → Nat → Byte

/-- Values that the spec does not state, one for each count of `State.free`: of a word, and of an image word. -/
opaque freeWord : Nat → Word
opaque freeDWord : Nat → DWord

/-- What the spec leaves open of an OEM routine's datapath (R239, R240): the result of a divide step (signed or not), a C
or V flag that no rule gives for an operation and flag class, how the 32-bit memory data register meets a 64-bit image word as
it is read and written whole, and the mask that it stands for in a read-modify-write, with the nanowords that clear by it. -/
opaque divideStep : Bool → Word → Word → Word
opaque oemFlag : Nat → Nat → Word → Word → Bool
opaque oemImageRead : DWord → Word
opaque oemImageWrite : Word → DWord → DWord
opaque oemImageMask : Word → DWord
opaque oemImageClears : Nat → Bool

/-- CAUSE of a FAIL frame (R388 gives only that of a planned handoff): 0 stranded halt, 1 lockup, 2 PFAIL_N, 3 a STOP
that the standby would not replay. -/
opaque failCause : Nat → Nat

/-- What Lantern's own code leaves in the core each time it runs (R163, R165, R173, R180): the lines that it fetches and loads,
its conditional branches by address and outcome, its indirect transfers by address and target, what it adds to a PIP
counter, and how deep its return stack has been (R221), in words. -/
opaque lanternFetches : Nat → List Nat
opaque lanternLoads : Nat → List Nat
opaque lanternBranches : Nat → List (Nat × Bool)
opaque lanternTargets : Nat → List (Nat × Nat)
opaque lanternCount : Nat → Nat → Nat
opaque lanternDepth : Nat → Nat

/-- What the instructions leave that are cancelled behind a fault, at a switch or at a debug halt (R177): the lines of the
instruction cache and of the data cache that they used, the fills that they requested (of the data cache or not), and the
line that the line buffer took. -/
opaque cancelledFetches : Nat → List Nat
opaque cancelledLoads : Nat → List Nat
opaque cancelledFills : Nat → List (Bool × Nat)
opaque cancelledLine : Nat → Option Nat

/-- The continuation words that the routine of an entry word executes before its first safe point, and between its j-th and the
next, on the path that it takes; the boot ROM fixes them (R236, R478). And whether the MCS unit's own repair of a word reads
back well (R250). -/
opaque continuation : Nat → Nat → Nat → List Nat
opaque readBack : Nat → Bool

/-- The word of an FP ownership transfer whose access is answered ABORTED (R480). -/
opaque abortedWord : Nat → Nat

/-- Measured times in cc: a hold of a store with the buffer full (R184), an event latency (R198), and a standby's wait at a
horizon (R402). -/
opaque storeHold : Nat → Nat
opaque eventLatency : Nat → Nat
opaque horizonWait : Nat → Nat

/-- BEAT cycles that have passed at a count of an encoder source beyond those that the model's clock tells (R334, R347); a link's exchange
is at its request still, so that the driver is enabled (R295). -/
opaque encoderGrain : Nat → Nat
opaque requestLeaves : Nat → Nat → Bool

/-- What waits as a fault is entered falls at the entry's safe point (R216); a fault of Lantern arises before the first
instruction of its handler has retired (R218). -/
opaque entryYields : Nat → Bool
opaque lanternNests : Nat → Bool

/-- A host write falls in the very fc in which the core port writes its word (R260). -/
opaque sameCycle : Nat → Bool

end Sys2Proof.Config
end

