-- ==== Sys2Proof/Machine/Bits.lean ====
section
/-! DEFINITION. Bit fields, sign extension and byte order (R3, R4): the helpers every other part of the model reads and
writes words with. -/

namespace Sys2Proof.Machine

/-- The field [hi:lo] of a word, as a number. -/
def fld {n : Nat} (w : BitVec n) (hi lo : Nat) : Nat := (w.toNat >>> lo) % 2 ^ (hi + 1 - lo)

/-- Bit i of a word. -/
def bit {n : Nat} (w : BitVec n) (i : Nat) : Bool := w.getLsbD i

/-- The mask of bits [hi:lo]. -/
def mask (n hi lo : Nat) : BitVec n := BitVec.ofNat n ((2 ^ (hi + 1 - lo) - 1) <<< lo)

/-- The word with field [hi:lo] set to a number. -/
def setFld {n : Nat} (w : BitVec n) (hi lo v : Nat) : BitVec n :=
  (w &&& ~~~ mask n hi lo) ||| (BitVec.ofNat n ((v % 2 ^ (hi + 1 - lo)) <<< lo))

/-- The word with bit i set to a truth value. -/
def setBit {n : Nat} (w : BitVec n) (i : Nat) (b : Bool) : BitVec n := setFld w i i b.toNat

/-- The byte at position i of a number, the least significant first (R4). -/
def byteOf (v i : Nat) : Byte := BitVec.ofNat 8 (v >>> (8 * i))

/-- The n bytes of a number, the least significant first (R4). -/
def toBytes (v : Nat) : Nat → List Byte
  | 0 => []
  | n + 1 => BitVec.ofNat 8 v :: toBytes (v / 256) n

/-- The number that a list of bytes spells, the least significant first (R4). -/
def ofBytes : List Byte → Nat
  | [] => 0
  | b :: t => b.toNat + 256 * ofBytes t

/-- The bytes of a list of words. -/
def wordsToBytes (ws : List Word) : List Byte := ws.flatMap fun w => toBytes w.toNat 4

/-- Cut a list of bytes into words, the least significant byte first; a short tail is filled with zeros. -/
def bytesToWords : List Byte → List Word
  | [] => []
  | [a] => [BitVec.ofNat 32 (ofBytes [a])]
  | [a, b] => [BitVec.ofNat 32 (ofBytes [a, b])]
  | [a, b, c] => [BitVec.ofNat 32 (ofBytes [a, b, c])]
  | a :: b :: c :: d :: t => BitVec.ofNat 32 (ofBytes [a, b, c, d]) :: bytesToWords t

/-- The 16-bit field at byte i of a byte list. -/
def half (bs : List Byte) (i : Nat) : Nat := ofBytes ((bs.drop i).take 2)

/-- The 32-bit field at byte i of a byte list. -/
def word32 (bs : List Byte) (i : Nat) : Nat := ofBytes ((bs.drop i).take 4)

/-- The byte at position i of a byte list, as a number; 0 beyond its end. -/
def byteAt (bs : List Byte) (i : Nat) : Nat := (bs.getD i 0).toNat

/-- Sign-extend the low n bits of a number to a word. -/
def sext (n v : Nat) : Word := (BitVec.ofNat n v).signExtend 32

/-- The truth value of R110. -/
def truth (b : Bool) : Word := if b then 0xFFFFFFFF else 0

/-- A counter's next value, held at its greatest value. -/
def satInc (v top : Nat) : Nat := if v < top then v + 1 else v

/-- The numbers from lo, n of them, ascending. -/
def rangeFrom (lo n : Nat) : List Nat := (List.range n).map (lo + ·)

/-- The number of bits at 1 of a word. -/
def popCount {n : Nat} (w : BitVec n) : Nat := (List.range n).foldl (fun c i => c + (w.getLsbD i).toNat) 0

/-- The lowest bit at 1 of a word. -/
def lowestSet {n : Nat} (w : BitVec n) : Option Nat := (List.range n).find? fun i => w.getLsbD i

end Sys2Proof.Machine
end

