-- ==== Sys2Proof/Machine/Regs.lean ====
section
/-! DEFINITION. The register pages 0x00-0x13 of the block: the block physical address of every register, and every
field of it with its bits, access code, level and Reset value, as the register tables of the spec's chapters give them
(R5, R7, R8, R9; R60, R61, R86, R87, R184, R186, R209, R231, R254, R266, R294, R321, R347, R348, R371, R402, R403,
R405, R447, R464, R465). An element of a register array is described by the array's first element. -/

namespace Sys2Proof.Machine

/-- The access codes of R5. -/
inductive Acc where
  | RW | RO | WO | W1C | RC | RQ
  deriving DecidableEq, Repr

/-- The levels of R9: basic and expert. -/
inductive Lvl where
  | B | E
  deriving DecidableEq, Repr

/-- One field of a register: bits `hi` to `lo`, access, level, and the value of the Reset column (R8). -/
structure Fld where
  hi  : Nat
  lo  : Nat
  acc : Acc
  lvl : Lvl
  rst : Nat
  deriving DecidableEq, Repr

/-! ### Addresses (page n at 0x0078_0000 + n × 0x1000, R20); an array is named by its first element -/

namespace Reg

abbrev SYS_ID : Nat := 0x780000
abbrev SYS_VER : Nat := 0x780004
abbrev SYS_CTRL : Nat := 0x780008
abbrev CAR_STAT : Nat := 0x781000
abbrev CAR_LSHARE : Nat := 0x781004
abbrev CAR_FPOWN : Nat := 0x781008
abbrev CAR_CINIT : Nat := 0x78100C
abbrev CAR_ERR : Nat := 0x781010
abbrev CAR_LOST : Nat := 0x781020
abbrev CAR_SRCOVR : Nat := 0x781024
abbrev CAR_LATMAX : Nat := 0x781028
abbrev CAR_TMR : Nat := 0x781040
abbrev CAR_ROUTE : Nat := 0x781100
abbrev CAR_PRIO : Nat := 0x781400
abbrev CAR_CSTAT : Nat := 0x781500
abbrev CAR_CD : Nat := 0x781800
abbrev CAR_CDENTRY : Nat := 0x781804
abbrev CAR_CDSEGA : Nat := 0x781808
abbrev CAR_CDSEGB : Nat := 0x78180C
abbrev CAR_CDFPSA : Nat := 0x781810
abbrev PIP_CTRL : Nat := 0x782000
abbrev PIP_STAT : Nat := 0x782004
abbrev PIP_ICMISS : Nat := 0x782010
abbrev PIP_DCMISS : Nat := 0x782014
abbrev PIP_MISPRED : Nat := 0x782018
abbrev PIP_WPFILL : Nat := 0x78201C
abbrev PIP_SBFULL : Nat := 0x782020
abbrev PIP_PARTIAL : Nat := 0x782024
abbrev PIP_FWD : Nat := 0x782028
abbrev PIP_CPAR : Nat := 0x78202C
abbrev EXC_CTRL : Nat := 0x783000
abbrev EXC_GMLIM : Nat := 0x783004
abbrev EXC_STAT : Nat := 0x783008
abbrev EXC_LSP : Nat := 0x78300C
abbrev EXC_MCPEND : Nat := 0x783010
abbrev EXC_MCINFO : Nat := 0x783014
abbrev EXC_MCADDR : Nat := 0x783018
abbrev EXC_FLOST : Nat := 0x783020
abbrev EXC_GMOVR : Nat := 0x783024
abbrev EXC_NEST : Nat := 0x783028
abbrev MCS_CTRL : Nat := 0x784000
abbrev MCS_STAT : Nat := 0x784004
abbrev MCS_PERR : Nat := 0x784008
abbrev MCS_RELOAD : Nat := 0x78400C
abbrev MCS_PCOUNT : Nat := 0x784010
abbrev MCS_AUTO : Nat := 0x784014
abbrev MCS_DIGEST : Nat := 0x784020
abbrev MCS_OEM : Nat := 0x784040
abbrev MEM_CTRL : Nat := 0x785000
abbrev MEM_MAPOUT : Nat := 0x785004
abbrev MEM_BIST : Nat := 0x785008
abbrev MEM_EADDR : Nat := 0x78500C
abbrev MEM_ESYN : Nat := 0x785010
abbrev MEM_CECC : Nat := 0x785014
abbrev MEM_UECC : Nat := 0x785018
abbrev MEM_XCOLL : Nat := 0x78501C
abbrev SCN_CTRL : Nat := 0x786000
abbrev SCN_STAT : Nat := 0x786004
abbrev SCN_CYCLO : Nat := 0x786008
abbrev SCN_CYCHI : Nat := 0x78600C
abbrev SCN_RUNCYC : Nat := 0x786010
abbrev SCN_TSTART : Nat := 0x786014
abbrev SCN_WDOG : Nat := 0x786018
abbrev SCN_PAD : Nat := 0x78601C
abbrev SCN_CYCWARN : Nat := 0x786020
abbrev SCN_HKSLOT : Nat := 0x786024
abbrev SCN_FORCE : Nat := 0x786028
abbrev SCN_LASTCYC : Nat := 0x786030
abbrev SCN_MAXCYC : Nat := 0x786034
abbrev SCN_PROGT : Nat := 0x786038
abbrev SCN_WDCNT : Nat := 0x786040
abbrev SCN_LATECNT : Nat := 0x786044
abbrev SCN_NETEV : Nat := 0x786048
abbrev SCN_NETSKIP : Nat := 0x78604C
abbrev SCN_IMGERR : Nat := 0x786050
abbrev FLK_STAT : Nat := 0x787000
abbrev FLK_ERR : Nat := 0x787004
abbrev FLK_LCFG : Nat := 0x787040
abbrev FLK_LUP : Nat := 0x787044
abbrev FLK_LROUND : Nat := 0x787048
abbrev FLK_LFERR : Nat := 0x78704C
abbrev FLK_LTMO : Nat := 0x787050
abbrev FLK_LCRC : Nat := 0x787054
abbrev FLK_LDROP : Nat := 0x787058
abbrev FLK_LRET : Nat := 0x78705C
abbrev BEA_STAT : Nat := 0x788000
abbrev BEA_SCFG : Nat := 0x788010
abbrev BEA_SOFF : Nat := 0x788014
abbrev BEA_CPR : Nat := 0x788018
abbrev BEA_PHASE : Nat := 0x78801C
abbrev BEA_FREQ : Nat := 0x788050
abbrev BEA_CCFG : Nat := 0x788100
abbrev BEA_CMP : Nat := 0x788104
abbrev BEA_CAPP : Nat := 0x788108
abbrev BEA_CAPT : Nat := 0x78810C
abbrev BEA_CAPF : Nat := 0x788110
abbrev BEA_LLAT : Nat := 0x788300
abbrev BEA_LATE : Nat := 0x788340
abbrev BEA_FBCNT : Nat := 0x788344
abbrev BEA_EDGREJ : Nat := 0x788348
abbrev BEA_BIND : Nat := 0x788400
abbrev GOV_CTRL : Nat := 0x789000
abbrev GOV_STAT : Nat := 0x789004
abbrev GOV_TADDR : Nat := 0x789010
abbrev GOV_TDATA : Nat := 0x789014
abbrev GOV_GCFG : Nat := 0x789100
abbrev GOV_GBUD : Nat := 0x789104
abbrev GOV_GREC : Nat := 0x789108
abbrev GOV_GDEF : Nat := 0x78910C
abbrev OLC_STAT : Nat := 0x78A000
abbrev OLC_CFG : Nat := 0x78A004
abbrev OLC_GENID : Nat := 0x78A008
abbrev OLC_SWCYC : Nat := 0x78A00C
abbrev OLC_HCC : Nat := 0x78A010
abbrev OLC_HCNT : Nat := 0x78A014
abbrev OLC_HTMO : Nat := 0x78A018
abbrev OLC_MFAIL : Nat := 0x78A01C
abbrev OLC_DIGA : Nat := 0x78A020
abbrev OLC_DIGB : Nat := 0x78A040
abbrev BCN_CFG : Nat := 0x78B000
abbrev BCN_TIME : Nat := 0x78B004
abbrev BCN_REPL : Nat := 0x78B008
abbrev BCN_RSYNC : Nat := 0x78B00C
abbrev BCN_STAT : Nat := 0x78B010
abbrev BCN_SYNCCYC : Nat := 0x78B014
abbrev BCN_STALL : Nat := 0x78B018
abbrev BCN_CRCERR : Nat := 0x78B020
abbrev BCN_RESEND : Nat := 0x78B024
abbrev BCN_DIVCNT : Nat := 0x78B028
abbrev BCN_RSYNCCNT : Nat := 0x78B02C
abbrev BCN_TKCNT : Nat := 0x78B030
abbrev CHN_CFG : Nat := 0x78C000
abbrev CHN_MBASE : Nat := 0x78C004
abbrev CHN_TIME : Nat := 0x78C008
abbrev CHN_STAT : Nat := 0x78C00C
abbrev CHN_RND : Nat := 0x78C010
abbrev CHN_CRCERR : Nat := 0x78C020
abbrev CHN_MISS : Nat := 0x78C024
abbrev CHN_TOVR : Nat := 0x78C028
abbrev CHN_ALONE : Nat := 0x78C02C
abbrev HST_DOORBELL : Nat := 0x78D000
abbrev HST_RING : Nat := 0x78D004
abbrev HST_IRQ : Nat := 0x78D008
abbrev HST_IRQEN : Nat := 0x78D00C
abbrev HST_ATTN : Nat := 0x78D010
abbrev HST_EXPERT : Nat := 0x78D014
abbrev HST_ERR : Nat := 0x78D018
abbrev HST_CMDCNT : Nat := 0x78D020
abbrev HST_ABTCNT : Nat := 0x78D024
abbrev HST_REPLY : Nat := 0x78D040
abbrev DBG_STAT : Nat := 0x78E000
abbrev DBG_GRANT : Nat := 0x78E004
abbrev DBG_VSTEP : Nat := 0x78E008
abbrev DBG_TRCTRL : Nat := 0x78E010
abbrev DBG_CHIMEEN : Nat := 0x78E014
abbrev DBG_MATCH : Nat := 0x78E018
abbrev DBG_TRLOST : Nat := 0x78E01C
abbrev DBG_CMP : Nat := 0x78E040
abbrev DBG_ADDR : Nat := 0x78E044
abbrev DBG_DVAL : Nat := 0x78E048
abbrev DBG_DMASK : Nat := 0x78E04C
abbrev LOG_CTRL : Nat := 0x78F000
abbrev LOG_STAT : Nat := 0x78F004
abbrev LOG_HEAD : Nat := 0x78F008
abbrev LOG_SEQ : Nat := 0x78F00C
abbrev LOG_LOST : Nat := 0x78F010
abbrev LOG_LGSTAT : Nat := 0x78F014
abbrev FLT_LASTING : Nat := 0x790000
abbrev FLT_WDT : Nat := 0x790004
abbrev FLT_WDTREM : Nat := 0x790008
abbrev FLT_CLR : Nat := 0x79000C
abbrev FLT_LASTSTN : Nat := 0x790010
abbrev FLT_CFG : Nat := 0x790100
abbrev FLT_CNT : Nat := 0x790200
abbrev PWR_CTRL : Nat := 0x791000
abbrev PWR_STAT : Nat := 0x791004
abbrev PWR_FAULT : Nat := 0x791008
abbrev PWR_TACK : Nat := 0x79100C
abbrev PWR_RST : Nat := 0x791010
abbrev PWR_STRAP : Nat := 0x791014
abbrev PWR_RSTCAUSE : Nat := 0x791018
abbrev PWR_STALE : Nat := 0x79101C
abbrev PWR_WAKE : Nat := 0x791020
abbrev PWR_ALARM : Nat := 0x791024
abbrev PWR_EPOCH0 : Nat := 0x791030
abbrev PWR_EPOCH1 : Nat := 0x791034
abbrev PWR_EPOCH2 : Nat := 0x791038
abbrev CLK_CTRL : Nat := 0x792000
abbrev CLK_LOSS : Nat := 0x792004
abbrev CLK_MON : Nat := 0x792008
abbrev CLK_MEAS : Nat := 0x792010
abbrev CLK_TIMELO : Nat := 0x792030
abbrev CLK_TIMEHI : Nat := 0x792034
abbrev STR_STATUS : Nat := 0x793000
abbrev STR_CFG : Nat := 0x793004
abbrev STR_CLEAR : Nat := 0x793008
abbrev STR_REC : Nat := 0x793100

end Reg

/-- The fields of page 0x00 (SYS) by canonical offset; reserved bits are not listed (R7). -/
def fieldsSYS (off : Nat) : List Fld :=
  match off with
  | 0x000 => [⟨15, 0, .RO, .B, 9⟩, ⟨23, 16, .RO, .B, 0⟩, ⟨31, 24, .RO, .B, 0x4a⟩]
  | 0x004 => [⟨15, 0, .RO, .B, 0⟩]
  | 0x008 => [⟨0, 0, .RW, .E, 0⟩]
  | _ => []

/-- The fields of page 0x01 (CAR) by canonical offset; reserved bits are not listed (R7). -/
def fieldsCAR (off : Nat) : List Fld :=
  match off with
  | 0x000 => [⟨5, 0, .RO, .B, 0⟩, ⟨6, 6, .RO, .B, 1⟩, ⟨7, 7, .RO, .E, 0⟩, ⟨14, 8, .RO, .B, 0⟩]
  | 0x004 => [⟨10, 0, .RW, .E, 0x20⟩, ⟨23, 16, .RW, .E, 0x20⟩]
  | 0x008 => [⟨6, 0, .RO, .B, 0x40⟩, ⟨7, 7, .RO, .B, 0⟩]
  | 0x00C => [⟨5, 0, .WO, .E, 0⟩, ⟨8, 8, .WO, .E, 0⟩, ⟨31, 24, .WO, .E, 0⟩]
  | 0x010 => [⟨0, 0, .W1C, .B, 0⟩, ⟨1, 1, .W1C, .B, 0⟩, ⟨2, 2, .W1C, .B, 0⟩, ⟨13, 8, .RO, .B, 0⟩]
  | 0x020 => [⟨31, 0, .RC, .E, 0⟩]
  | 0x024 => [⟨31, 0, .RC, .E, 0⟩]
  | 0x028 => [⟨15, 0, .RC, .E, 0⟩]
  | 0x040 => [⟨23, 0, .RW, .B, 0⟩, ⟨31, 31, .RW, .B, 0⟩]
  | 0x100 => [⟨5, 0, .RW, .B, 0⟩, ⟨7, 7, .RW, .B, 0⟩]
  | 0x400 => [⟨3, 0, .RW, .B, 0⟩]
  | 0x500 => [⟨31, 0, .RO, .B, 0⟩]
  | 0x800 => [⟨3, 0, .RW, .E, 0⟩, ⟨4, 4, .RW, .E, 0⟩, ⟨5, 5, .RW, .E, 0⟩, ⟨6, 6, .RW, .E, 0⟩, ⟨7, 7, .RW, .E, 0⟩]
  | 0x804 => [⟨21, 0, .RW, .E, 0⟩]
  | 0x808 => [⟨31, 0, .RW, .E, 0⟩]
  | 0x80C => [⟨31, 0, .RW, .E, 0⟩]
  | 0x810 => [⟨22, 0, .RW, .E, 0⟩, ⟨31, 31, .RW, .E, 0⟩]
  | _ => []

/-- The fields of page 0x02 (PIP) by canonical offset; reserved bits are not listed (R7). -/
def fieldsPIP (off : Nat) : List Fld :=
  match off with
  | 0x000 => [⟨0, 0, .RW, .E, 0⟩, ⟨1, 1, .RW, .E, 0⟩, ⟨2, 2, .RW, .E, 0⟩, ⟨3, 3, .WO, .E, 0⟩, ⟨4, 4, .WO, .E, 0⟩, ⟨5, 5, .WO, .E, 0⟩]
  | 0x004 => [⟨2, 0, .RO, .E, 0⟩, ⟨3, 3, .RO, .E, 0⟩, ⟨4, 4, .RO, .E, 0⟩]
  | 0x010 => [⟨31, 0, .RC, .E, 0⟩]
  | 0x014 => [⟨31, 0, .RC, .E, 0⟩]
  | 0x018 => [⟨31, 0, .RC, .E, 0⟩]
  | 0x01C => [⟨31, 0, .RC, .E, 0⟩]
  | 0x020 => [⟨31, 0, .RC, .E, 0⟩]
  | 0x024 => [⟨31, 0, .RC, .E, 0⟩]
  | 0x028 => [⟨31, 0, .RC, .E, 0⟩]
  | 0x02C => [⟨31, 0, .RC, .E, 0⟩]
  | _ => []

/-- The fields of page 0x03 (EXC) by canonical offset; reserved bits are not listed (R7). -/
def fieldsEXC (off : Nat) : List Fld :=
  match off with
  | 0x000 => [⟨0, 0, .RW, .B, 0⟩, ⟨1, 1, .RW, .E, 0⟩]
  | 0x004 => [⟨15, 0, .RW, .E, 0x1000⟩]
  | 0x008 => [⟨0, 0, .RO, .B, 0⟩, ⟨1, 1, .RO, .B, 0⟩, ⟨2, 2, .RO, .B, 0⟩]
  | 0x00C => [⟨14, 0, .RO, .B, 0⟩, ⟨30, 16, .RC, .E, 0⟩]
  | 0x010 => [⟨6, 0, .W1C, .B, 0⟩]
  | 0x014 => [⟨5, 0, .RO, .B, 0⟩, ⟨6, 6, .RO, .B, 0⟩, ⟨10, 8, .RO, .B, 0⟩]
  | 0x018 => [⟨22, 0, .RO, .B, 0⟩]
  | 0x020 => [⟨31, 0, .RC, .E, 0⟩]
  | 0x024 => [⟨31, 0, .RC, .E, 0⟩]
  | 0x028 => [⟨31, 0, .RC, .E, 0⟩]
  | _ => []

/-- The fields of page 0x04 (MCS) by canonical offset; reserved bits are not listed (R7). -/
def fieldsMCS (off : Nat) : List Fld :=
  match off with
  | 0x000 => [⟨0, 0, .RW, .E, 1⟩]
  | 0x004 => [⟨0, 0, .W1C, .B, 0⟩, ⟨1, 1, .RO, .B, 0⟩]
  | 0x008 => [⟨11, 0, .RO, .B, 0⟩, ⟨12, 12, .RO, .B, 0⟩, ⟨13, 13, .RO, .B, 0⟩, ⟨14, 14, .RO, .B, 0⟩, ⟨15, 15, .RO, .B, 0⟩, ⟨16, 16, .W1C, .B, 0⟩]
  | 0x00C => [⟨11, 0, .WO, .E, 0⟩, ⟨12, 12, .WO, .E, 0⟩, ⟨31, 24, .WO, .E, 0⟩]
  | 0x010 => [⟨15, 0, .RC, .E, 0⟩]
  | 0x014 => [⟨15, 0, .RC, .E, 0⟩]
  | 0x020 => [⟨31, 0, .RO, .B, 0⟩]
  | 0x040 => [⟨8, 0, .RO, .B, 0⟩]
  | _ => []

/-- The fields of page 0x05 (MEM) by canonical offset; reserved bits are not listed (R7). -/
def fieldsMEM (off : Nat) : List Fld :=
  match off with
  | 0x000 => [⟨0, 0, .RW, .E, 1⟩, ⟨1, 1, .RW, .E, 1⟩]
  | 0x004 => [⟨15, 0, .RO, .B, 0⟩]
  | 0x008 => [⟨11, 0, .RO, .B, 0⟩, ⟨12, 12, .RO, .B, 0⟩]
  | 0x00C => [⟨22, 0, .RO, .B, 0⟩, ⟨23, 23, .RO, .B, 0⟩, ⟨31, 31, .W1C, .B, 0⟩]
  | 0x010 => [⟨7, 0, .RO, .E, 0⟩, ⟨11, 8, .RO, .B, 0⟩, ⟨15, 12, .RO, .B, 0⟩]
  | 0x014 => [⟨31, 0, .RC, .E, 0⟩]
  | 0x018 => [⟨31, 0, .RC, .E, 0⟩]
  | 0x01C => [⟨31, 0, .RC, .E, 0⟩]
  | _ => []

/-- The fields of page 0x06 (SCN) by canonical offset; reserved bits are not listed (R7). -/
def fieldsSCN (off : Nat) : List Fld :=
  match off with
  | 0x000 => [⟨0, 0, .RW, .B, 0⟩, ⟨1, 1, .RW, .B, 0⟩, ⟨2, 2, .RW, .B, 0⟩, ⟨3, 3, .WO, .E, 0⟩]
  | 0x004 => [⟨2, 0, .RO, .B, 0⟩, ⟨3, 3, .RO, .B, 0⟩, ⟨4, 4, .RO, .B, 0⟩, ⟨5, 5, .RO, .B, 0⟩]
  | 0x008 => [⟨31, 0, .RO, .B, 0⟩]
  | 0x00C => [⟨23, 0, .RO, .B, 0⟩]
  | 0x010 => [⟨31, 0, .RO, .B, 0⟩]
  | 0x014 => [⟨31, 0, .RO, .B, 0⟩]
  | 0x018 => [⟨15, 0, .RW, .B, 0x96⟩, ⟨31, 16, .RW, .E, 0xa⟩]
  | 0x01C => [⟨23, 0, .RW, .E, 0⟩]
  | 0x020 => [⟨23, 0, .RW, .B, 0⟩]
  | 0x024 => [⟨15, 0, .RW, .E, 0x4000⟩]
  | 0x028 => [⟨10, 0, .RO, .B, 0⟩, ⟨11, 11, .RO, .B, 0⟩]
  | 0x030 => [⟨31, 0, .RO, .B, 0⟩]
  | 0x034 => [⟨31, 0, .RC, .E, 0⟩]
  | 0x038 => [⟨31, 0, .RO, .B, 0⟩]
  | 0x040 => [⟨31, 0, .RC, .E, 0⟩]
  | 0x044 => [⟨31, 0, .RC, .E, 0⟩]
  | 0x048 => [⟨31, 0, .RC, .E, 0⟩]
  | 0x04C => [⟨31, 0, .RC, .E, 0⟩]
  | 0x050 => [⟨31, 0, .RC, .E, 0⟩]
  | _ => []

/-- The fields of page 0x07 (FLK) by canonical offset; reserved bits are not listed (R7). -/
def fieldsFLK (off : Nat) : List Fld :=
  match off with
  | 0x000 => [⟨7, 0, .RO, .B, 0⟩]
  | 0x004 => [⟨7, 0, .W1C, .B, 0⟩, ⟨15, 8, .W1C, .B, 0⟩]
  | 0x040 => [⟨0, 0, .RW, .B, 0⟩, ⟨3, 1, .RW, .B, 0⟩, ⟨7, 4, .RW, .B, 3⟩, ⟨15, 8, .RW, .E, 0x30⟩, ⟨23, 16, .RW, .E, 0x18⟩]
  | 0x044 => [⟨31, 0, .RO, .B, 0⟩]
  | 0x048 => [⟨23, 0, .RO, .E, 0⟩]
  | 0x04C => [⟨31, 0, .RC, .E, 0⟩]
  | 0x050 => [⟨31, 0, .RC, .E, 0⟩]
  | 0x054 => [⟨31, 0, .RC, .E, 0⟩]
  | 0x058 => [⟨31, 0, .RC, .E, 0⟩]
  | 0x05C => [⟨31, 0, .RC, .E, 0⟩]
  | _ => []

/-- The fields of page 0x08 (BEA) by canonical offset; reserved bits are not listed (R7). -/
def fieldsBEA (off : Nat) : List Fld :=
  match off with
  | 0x000 => [⟨3, 0, .RO, .B, 0⟩, ⟨7, 4, .W1C, .B, 0⟩, ⟨11, 8, .W1C, .B, 0⟩, ⟨12, 12, .W1C, .B, 0⟩, ⟨13, 13, .RO, .B, 0⟩]
  | 0x010 => [⟨0, 0, .RW, .B, 0⟩, ⟨1, 1, .RW, .B, 0⟩, ⟨2, 2, .RW, .B, 0⟩, ⟨3, 3, .RW, .B, 0⟩, ⟨4, 4, .RW, .B, 0⟩]
  | 0x014 => [⟨31, 0, .RW, .E, 0⟩]
  | 0x018 => [⟨23, 0, .RW, .B, 4⟩]
  | 0x01C => [⟨31, 0, .RO, .B, 0⟩]
  | 0x050 => [⟨23, 0, .RO, .E, 0⟩]
  | 0x100 => [⟨1, 0, .RW, .B, 0⟩, ⟨2, 2, .RW, .B, 0⟩, ⟨3, 3, .RW, .B, 0⟩, ⟨4, 4, .RW, .B, 0⟩, ⟨6, 5, .RW, .B, 0⟩, ⟨7, 7, .RW, .E, 0⟩, ⟨31, 16, .RW, .E, 0x28⟩]
  | 0x104 => [⟨31, 0, .RW, .B, 0⟩]
  | 0x108 => [⟨31, 0, .RO, .B, 0⟩]
  | 0x10C => [⟨31, 0, .RO, .B, 0⟩]
  | 0x110 => [⟨0, 0, .RO, .B, 0⟩, ⟨1, 1, .RO, .B, 0⟩, ⟨2, 2, .RO, .B, 0⟩, ⟨3, 3, .RO, .B, 0⟩, ⟨31, 8, .RO, .B, 0⟩]
  | 0x300 => [⟨15, 0, .RW, .E, 0⟩]
  | 0x340 => [⟨31, 0, .RC, .E, 0⟩]
  | 0x344 => [⟨31, 0, .RC, .E, 0⟩]
  | 0x348 => [⟨31, 0, .RC, .E, 0⟩]
  | 0x400 => [⟨17, 0, .RW, .B, 0⟩, ⟨21, 18, .RW, .B, 0⟩, ⟨23, 23, .RW, .B, 0⟩]
  | _ => []

/-- The fields of page 0x09 (GOV) by canonical offset; reserved bits are not listed (R7). -/
def fieldsGOV (off : Nat) : List Fld :=
  match off with
  | 0x000 => [⟨0, 0, .RW, .B, 0⟩]
  | 0x004 => [⟨0, 0, .W1C, .B, 0⟩, ⟨1, 1, .RO, .B, 0⟩]
  | 0x010 => [⟨11, 0, .RW, .B, 0⟩]
  | 0x014 => [⟨31, 0, .RW, .B, 0⟩]
  | 0x100 => [⟨6, 0, .RW, .B, 0⟩, ⟨9, 8, .RW, .B, 1⟩, ⟨15, 10, .RW, .B, 0⟩, ⟨31, 16, .RW, .B, 0⟩]
  | 0x104 => [⟨15, 0, .RW, .B, 0xffff⟩, ⟨25, 16, .RW, .B, 0x3e8⟩]
  | 0x108 => [⟨15, 0, .RW, .E, 0x64⟩]
  | 0x10C => [⟨31, 0, .RC, .E, 0⟩]
  | _ => []

/-- The fields of page 0x0A (OLC) by canonical offset; reserved bits are not listed (R7). -/
def fieldsOLC (off : Nat) : List Fld :=
  match off with
  | 0x000 => [⟨0, 0, .RO, .B, 0⟩, ⟨1, 1, .RO, .B, 0⟩, ⟨2, 2, .RO, .B, 0⟩, ⟨3, 3, .RO, .B, 0⟩, ⟨4, 4, .RO, .B, 0⟩, ⟨5, 5, .RO, .B, 0⟩, ⟨7, 6, .RO, .B, 0⟩]
  | 0x004 => [⟨15, 0, .RW, .E, 0x3e8⟩, ⟨31, 16, .RW, .E, 0x7d0⟩]
  | 0x008 => [⟨31, 0, .RO, .B, 0⟩]
  | 0x00C => [⟨31, 0, .RO, .B, 0⟩]
  | 0x010 => [⟨31, 0, .RO, .E, 0⟩]
  | 0x014 => [⟨31, 0, .RC, .E, 0⟩]
  | 0x018 => [⟨31, 0, .RC, .E, 0⟩]
  | 0x01C => [⟨31, 0, .RC, .E, 0⟩]
  | 0x020 => [⟨31, 0, .RO, .B, 0⟩]
  | 0x040 => [⟨31, 0, .RO, .B, 0⟩]
  | _ => []

/-- The fields of page 0x0B (BCN) by canonical offset; reserved bits are not listed (R7). -/
def fieldsBCN (off : Nat) : List Fld :=
  match off with
  | 0x000 => [⟨0, 0, .RW, .B, 0⟩, ⟨1, 1, .RW, .B, 1⟩]
  | 0x004 => [⟨15, 0, .RW, .E, 0x3e8⟩, ⟨31, 16, .RW, .E, 0x3e8⟩]
  | 0x008 => [⟨15, 0, .RW, .E, 0x400⟩, ⟨23, 16, .RW, .E, 4⟩]
  | 0x00C => [⟨7, 0, .RW, .E, 0x40⟩, ⟨11, 8, .RW, .E, 8⟩, ⟨18, 12, .RW, .E, 0x32⟩]
  | 0x010 => [⟨2, 0, .RO, .B, 0⟩, ⟨3, 3, .RO, .B, 0⟩, ⟨4, 4, .RO, .B, 0⟩, ⟨5, 5, .W1C, .B, 0⟩, ⟨6, 6, .RO, .B, 0⟩, ⟨10, 8, .RO, .B, 0⟩]
  | 0x014 => [⟨31, 0, .RO, .B, 0⟩]
  | 0x018 => [⟨31, 0, .RC, .E, 0⟩]
  | 0x020 => [⟨31, 0, .RC, .E, 0⟩]
  | 0x024 => [⟨31, 0, .RC, .E, 0⟩]
  | 0x028 => [⟨31, 0, .RC, .E, 0⟩]
  | 0x02C => [⟨31, 0, .RC, .E, 0⟩]
  | 0x030 => [⟨31, 0, .RC, .E, 0⟩]
  | _ => []

/-- The fields of page 0x0C (CHN) by canonical offset; reserved bits are not listed (R7). -/
def fieldsCHN (off : Nat) : List Fld :=
  match off with
  | 0x000 => [⟨7, 0, .RW, .B, 0⟩, ⟨8, 8, .RW, .B, 0⟩]
  | 0x004 => [⟨12, 0, .RW, .B, 0⟩]
  | 0x008 => [⟨15, 0, .RW, .E, 0xc8⟩, ⟨31, 16, .RW, .E, 0x7d0⟩]
  | 0x00C => [⟨2, 0, .RO, .B, 0⟩, ⟨3, 3, .RO, .B, 0⟩, ⟨4, 4, .RO, .B, 0⟩, ⟨5, 5, .RO, .B, 0⟩, ⟨6, 6, .RO, .B, 0⟩]
  | 0x010 => [⟨31, 0, .RO, .B, 0⟩]
  | 0x020 => [⟨31, 0, .RC, .E, 0⟩]
  | 0x024 => [⟨31, 0, .RC, .E, 0⟩]
  | 0x028 => [⟨31, 0, .RC, .E, 0⟩]
  | 0x02C => [⟨31, 0, .RC, .E, 0⟩]
  | _ => []

/-- The fields of page 0x0D (HST) by canonical offset; reserved bits are not listed (R7, R405). -/
def fieldsHST (off : Nat) : List Fld :=
  match off with
  | 0x000 => [⟨15, 0, .WO, .B, 0⟩, ⟨23, 16, .WO, .B, 0⟩]
  | 0x004 => [⟨3, 0, .RO, .B, 0⟩, ⟨4, 4, .RO, .B, 0⟩, ⟨31, 16, .RO, .B, 0⟩]
  | 0x008 => [⟨3, 0, .W1C, .B, 0⟩]
  | 0x00C => [⟨3, 0, .RW, .B, 0⟩]
  | 0x010 => [⟨0, 0, .RC, .B, 0⟩, ⟨1, 1, .RC, .B, 0⟩, ⟨2, 2, .RC, .B, 0⟩]
  | 0x014 => [⟨0, 0, .RO, .B, 0⟩, ⟨31, 8, .RO, .B, 0⟩]
  | 0x018 => [⟨0, 0, .W1C, .B, 0⟩, ⟨1, 1, .W1C, .B, 0⟩, ⟨2, 2, .W1C, .B, 0⟩]
  | 0x020 => [⟨31, 0, .RC, .E, 0⟩]
  | 0x024 => [⟨31, 0, .RC, .E, 0⟩]
  | 0x040 => [⟨31, 0, .RQ, .B, 0⟩]
  | _ => []

/-- The fields of page 0x0E (DBG) by canonical offset; reserved bits are not listed (R7). -/
def fieldsDBG (off : Nat) : List Fld :=
  match off with
  | 0x000 => [⟨1, 0, .RO, .B, 0⟩, ⟨2, 2, .RO, .B, 0⟩, ⟨3, 3, .RO, .B, 0⟩, ⟨4, 4, .RO, .B, 0⟩, ⟨5, 5, .RO, .B, 0⟩, ⟨6, 6, .W1C, .B, 0⟩, ⟨13, 8, .RO, .B, 0⟩, ⟨14, 14, .RO, .B, 0⟩]
  | 0x004 => [⟨1, 0, .RO, .B, 0⟩, ⟨2, 2, .RO, .B, 0⟩, ⟨4, 3, .RO, .B, 0⟩, ⟨31, 16, .RO, .B, 0⟩]
  | 0x008 => [⟨5, 0, .RW, .B, 0⟩, ⟨6, 6, .RW, .B, 0⟩]
  | 0x010 => [⟨0, 0, .RW, .B, 0⟩, ⟨1, 1, .RW, .B, 0⟩, ⟨2, 2, .RW, .B, 0⟩]
  | 0x014 => [⟨31, 0, .RW, .B, 0⟩]
  | 0x018 => [⟨7, 0, .RC, .B, 0⟩]
  | 0x01C => [⟨31, 0, .RC, .E, 0⟩]
  | 0x040 => [⟨2, 0, .RW, .B, 0⟩, ⟨4, 3, .RW, .B, 0⟩, ⟨9, 5, .RW, .B, 0⟩, ⟨15, 10, .RW, .B, 0⟩, ⟨16, 16, .RW, .B, 0⟩, ⟨17, 17, .RW, .B, 0⟩]
  | 0x044 => [⟨22, 0, .RW, .B, 0⟩]
  | 0x048 => [⟨31, 0, .RW, .B, 0⟩]
  | 0x04C => [⟨31, 0, .RW, .B, 0⟩]
  | _ => []

/-- The fields of page 0x0F (LOG) by canonical offset; reserved bits are not listed (R7). -/
def fieldsLOG (off : Nat) : List Fld :=
  match off with
  | 0x000 => [⟨0, 0, .RW, .B, 1⟩, ⟨1, 1, .RW, .E, 1⟩]
  | 0x004 => [⟨0, 0, .RO, .B, 0⟩, ⟨1, 1, .RO, .B, 0⟩, ⟨5, 2, .RO, .B, 0⟩]
  | 0x008 => [⟨7, 0, .RO, .B, 0⟩, ⟨24, 16, .RO, .B, 0⟩]
  | 0x00C => [⟨31, 0, .RO, .B, 0⟩]
  | 0x010 => [⟨31, 0, .RC, .E, 0⟩]
  | 0x014 => [⟨6, 0, .RO, .B, 0⟩, ⟨7, 7, .RO, .B, 0⟩, ⟨8, 8, .RO, .B, 0⟩]
  | _ => []

/-- The fields of page 0x10 (FLT) by canonical offset; reserved bits are not listed (R7). -/
def fieldsFLT (off : Nat) : List Fld :=
  match off with
  | 0x000 => [⟨31, 0, .RO, .B, 0⟩]
  | 0x004 => [⟨15, 0, .RW, .E, 0x3e8⟩, ⟨16, 16, .W1C, .B, 0⟩]
  | 0x008 => [⟨15, 0, .RO, .E, 0⟩]
  | 0x00C => [⟨0, 0, .WO, .E, 0⟩, ⟨31, 24, .WO, .E, 0⟩]
  | 0x010 => [⟨8, 0, .RO, .B, 0⟩, ⟨11, 9, .RO, .B, 0⟩, ⟨12, 12, .RO, .B, 0⟩, ⟨17, 13, .RO, .B, 0⟩]
  | 0x100 => [⟨21, 0, .RW, .E, 0⟩, ⟨29, 22, .RW, .E, 0⟩, ⟨31, 30, .RW, .E, 0⟩]
  | 0x200 => [⟨23, 0, .RO, .B, 0⟩, ⟨30, 24, .RO, .B, 0⟩, ⟨31, 31, .RO, .B, 0⟩]
  | _ => []

/-- The fields of page 0x11 (PWR) by canonical offset; reserved bits are not listed (R7). -/
def fieldsPWR (off : Nat) : List Fld :=
  match off with
  | 0x000 => [⟨1, 0, .RO, .B, 0⟩, ⟨23, 2, .RW, .E, 0⟩, ⟨24, 24, .WO, .E, 0⟩]
  | 0x004 => [⟨23, 0, .RO, .B, 0xaaaaa8⟩]
  | 0x008 => [⟨11, 0, .W1C, .B, 0⟩, ⟨12, 12, .W1C, .B, 0⟩, ⟨13, 13, .W1C, .B, 0⟩]
  | 0x00C => [⟨7, 0, .RW, .E, 0xc8⟩]
  | 0x010 => [⟨7, 4, .WO, .E, 0⟩, ⟨11, 9, .WO, .E, 0⟩, ⟨16, 16, .WO, .E, 0⟩, ⟨31, 24, .WO, .E, 0⟩]
  | 0x014 => [⟨2, 0, .RO, .B, 0⟩, ⟨3, 3, .RO, .B, 0⟩]
  | 0x018 => [⟨5, 0, .RO, .B, 1⟩]
  | 0x01C => [⟨15, 0, .RC, .E, 0⟩]
  | 0x020 => [⟨3, 0, .RW, .E, 0⟩, ⟨4, 4, .RW, .E, 0⟩, ⟨5, 5, .RW, .E, 0⟩]
  | 0x024 => [⟨31, 0, .RW, .E, 0⟩]
  | 0x030 => [⟨31, 0, .RO, .B, 0⟩]
  | 0x034 => [⟨31, 0, .RO, .B, 0⟩]
  | 0x038 => [⟨23, 0, .RO, .B, 0⟩]
  | _ => []

/-- The fields of page 0x12 (CLK) by canonical offset; reserved bits are not listed (R7). -/
def fieldsCLK (off : Nat) : List Fld :=
  match off with
  | 0x000 => [⟨0, 0, .RW, .E, 0⟩]
  | 0x004 => [⟨7, 0, .W1C, .B, 0⟩]
  | 0x008 => [⟨0, 0, .RO, .B, 1⟩, ⟨7, 6, .RO, .B, 3⟩, ⟨5, 1, .RW, .E, 0⟩]
  | 0x010 => [⟨23, 0, .RO, .B, 0⟩, ⟨31, 31, .RO, .B, 0⟩]
  | 0x030 => [⟨31, 0, .RO, .B, 0⟩]
  | 0x034 => [⟨15, 0, .RO, .B, 0⟩]
  | _ => []

/-- The fields of page 0x13 (STR) by canonical offset; reserved bits are not listed (R7). -/
def fieldsSTR (off : Nat) : List Fld :=
  match off with
  | 0x000 => [⟨3, 0, .RO, .B, 0⟩, ⟨4, 4, .RO, .B, 1⟩, ⟨5, 5, .RO, .B, 0⟩]
  | 0x004 => [⟨1, 0, .RW, .B, 0⟩, ⟨2, 2, .RW, .B, 1⟩, ⟨3, 3, .RW, .E, 0⟩, ⟨31, 16, .RW, .E, 0x3e8⟩]
  | 0x008 => [⟨9, 0, .WO, .E, 0⟩, ⟨10, 10, .WO, .E, 0⟩, ⟨31, 24, .WO, .E, 0⟩]
  | 0x100 => [⟨31, 0, .RO, .B, 0⟩]
  | _ => []

/-- The offset of the first element of the register array that an offset lies in; any other offset is its own. -/
def canonOff (page off : Nat) : Nat :=
  let arr (lo hi first : Nat) : Option Nat := if lo ≤ off ∧ off ≤ hi then some first else none
  let strided (lo hi stride : Nat) : Option Nat :=
    if lo ≤ off ∧ off ≤ hi then some (lo + (off - lo) % stride) else none
  match page with
  | 0x01 => ((((arr 0x040 0x07C 0x040).orElse fun _ => arr 0x100 0x2FC 0x100).orElse
      fun _ => arr 0x400 0x4FC 0x400).orElse fun _ => arr 0x500 0x5FC 0x500).getD
      ((strided 0x800 0xFFC 0x20).getD off)
  | 0x04 => (arr 0x020 0x03C 0x020).getD off
  | 0x07 => (strided 0x040 0x13C 0x20).getD off
  | 0x08 => ((((strided 0x010 0x04C 0x10).orElse fun _ => arr 0x050 0x05C 0x050).orElse
      fun _ => strided 0x100 0x2FC 0x20).orElse fun _ => arr 0x300 0x31C 0x300).getD
      ((arr 0x400 0x7FC 0x400).getD off)
  | 0x09 => (strided 0x100 0x4FC 0x10).getD off
  | 0x0A => ((arr 0x020 0x03C 0x020).orElse fun _ => arr 0x040 0x05C 0x040).getD off
  | 0x0D => (arr 0x040 0x07C 0x040).getD off
  | 0x0E => (strided 0x040 0x0BC 0x10).getD off
  | 0x10 => ((arr 0x100 0x17C 0x100).orElse fun _ => arr 0x200 0x27C 0x200).getD off
  | 0x12 => (arr 0x010 0x028 0x010).getD off
  | 0x13 => (arr 0x100 0x17C 0x100).getD off
  | _ => off

/-- The base of the register pages, their end, and page n's base (R20). -/
abbrev regBase : Nat := 0x780000
abbrev regEnd : Nat := 0x794000
def pageBase (n : Nat) : Nat := regBase + n * 0x1000

/-- The page of a register address, and its offset in the page. -/
def pageOf (a : Nat) : Nat := (a - regBase) / 0x1000
def offOf (a : Nat) : Nat := (a - regBase) % 0x1000

/-- The Reset values of FLT_CFGc: window in ms, threshold and escalation of class c (R459). -/
def fltReset (c : Nat) : Nat × Nat × Nat :=
  match c with
  | 0 => (3600000, 2, 1) | 1 => (3600000, 16, 1) | 2 => (3600000, 2, 1) | 3 => (3600000, 16, 1)
  | 4 => (1000, 8, 1) | 5 => (1000, 8, 0) | 6 => (3600000, 1, 1) | 7 => (3600000, 2, 1)
  | 8 => (1000, 16, 0) | 9 => (1000, 4, 1) | 10 => (60000, 3, 1) | 11 => (60000, 8, 1)
  | 12 => (60000, 3, 1) | 13 => (1000, 8, 1) | 14 => (60000, 4, 1) | 15 => (3600000, 6, 1)
  | 16 => (60000, 4, 1) | 17 => (3600000, 3, 1) | 18 => (1000, 1, 1) | 19 => (3600000, 3, 1)
  | 20 => (3600000, 2, 1) | _ => (1000, 1, 0)

/-- The fields of the register at a block physical address; none where no register is listed (R20). Comparators 0 to 5
of the DBG page have neither DVEN nor DVAL nor DMASK (R447). -/
def fieldsAt (a : Nat) : List Fld :=
  let p := pageOf a
  let o := offOf a
  let c := canonOff p o
  match p with
  | 0x00 => fieldsSYS c
  | 0x01 => fieldsCAR c
  | 0x02 => fieldsPIP c
  | 0x03 => fieldsEXC c
  | 0x04 => fieldsMCS c
  | 0x05 => fieldsMEM c
  | 0x06 => fieldsSCN c
  | 0x07 => fieldsFLK c
  | 0x08 => fieldsBEA c
  | 0x09 => fieldsGOV c
  | 0x0A => fieldsOLC c
  | 0x0B => fieldsBCN c
  | 0x0C => fieldsCHN c
  | 0x0D => fieldsHST c
  | 0x0E =>
    if 0x40 ≤ o ∧ o < 0xA0 then
      match c with
      | 0x40 => (fieldsDBG c).filter fun f => f.lo != 17
      | 0x44 => fieldsDBG c
      | _ => []
    else fieldsDBG c
  | 0x0F => fieldsLOG c
  | 0x10 =>
    if c = 0x100 then
      let r := fltReset ((o - 0x100) / 4)
      [⟨21, 0, .RW, .E, r.1⟩, ⟨29, 22, .RW, .E, r.2.1⟩, ⟨31, 30, .RW, .E, r.2.2⟩]
    else fieldsFLT c
  | 0x11 => fieldsPWR c
  | 0x12 => fieldsCLK c
  | 0x13 => fieldsSTR c
  | _ => []

/-- The value a register takes on a reset of its unit: its fields' Reset values (R8). -/
def resetValue (a : Nat) : Word :=
  (fieldsAt a).foldl (fun w f => w ||| (BitVec.ofNat 32 f.rst <<< f.lo)) 0

/-- The power domain of a register page (R20, R21). -/
def pageDomain (page : Nat) : Nat :=
  match page with
  | 0x01 => 2 | 0x02 => 1 | 0x03 => 1 | 0x04 => 3 | 0x05 => 3 | 0x06 => 7 | 0x07 => 9 | 0x08 => 9
  | 0x09 => 7 | 0x0A => 3 | 0x0B => 10 | 0x0C => 10 | 0x0D => 8 | 0x0E => 11 | _ => 0

end Sys2Proof.Machine
end

