-- ==== Sys2Proof/Machine/Maps.lean ====
section
/-! DEFINITION. Sparse maps as plain data: a list of key and value pairs in ONE canonical form (keys strictly rising,
no entry equal to what an unlisted key reads as), so that equal maps are equal lists. Memory, the register pages, the
contexts, the stations and every other large table of State are such maps; what an unlisted key reads as is an
argument of the operations. -/

namespace Sys2Proof.Machine

/-- Every key of the list is above the bound. -/
def Map.above {α : Type} (b : Nat) : List (Nat × α) → Bool
  | [] => true
  | (k, _) :: t => decide (b < k) && Map.above b t

/-- The canonical form: keys strictly rising, no entry equal to the value that an unlisted key reads as. -/
def Map.wf {α : Type} [DecidableEq α] (d : Nat → α) : List (Nat × α) → Bool
  | [] => true
  | (k, v) :: t => Map.above k t && decide (v ≠ d k) && Map.wf d t

/-- The value at a key. -/
def Map.get {α : Type} (d : Nat → α) : List (Nat × α) → Nat → α
  | [], i => d i
  | (k, v) :: t, i => if i = k then v else Map.get d t i

/-- Put an entry in front, unless it holds the unlisted value. -/
def Map.put {α : Type} [DecidableEq α] (d : Nat → α) (k : Nat) (v : α) (t : List (Nat × α)) : List (Nat × α) :=
  if v = d k then t else (k, v) :: t

/-- Drop every entry whose key satisfies the test: those keys read as unlisted again. -/
def Map.drop {α : Type} (p : Nat → Bool) (m : List (Nat × α)) : List (Nat × α) :=
  m.filter fun e => !p e.1

/-- Put an entry at its place among the keys. -/
def Map.insert {α : Type} [DecidableEq α] (d : Nat → α) : List (Nat × α) → Nat → α → List (Nat × α)
  | [], i, x => Map.put d i x []
  | (k, v) :: t, i, x => if i < k then Map.put d i x ((k, v) :: t) else (k, v) :: Map.insert d t i x

/-- Set the value at a key, keeping the canonical form. -/
def Map.set {α : Type} [DecidableEq α] (d : Nat → α) (m : List (Nat × α)) (i : Nat) (x : α) : List (Nat × α) :=
  Map.insert d (Map.drop (· == i) m) i x

/-- Write a list of values at consecutive keys. -/
def Map.setAll {α : Type} [DecidableEq α] (d : Nat → α) (m : List (Nat × α)) (i : Nat) : List α → List (Nat × α)
  | [] => m
  | x :: xs => Map.setAll d (Map.set d m i x) (i + 1) xs

end Sys2Proof.Machine
end

