-- ==== Sys2Proof/Machine/State.lean ====
section
/-! DEFINITION. The state of the block as plain data: every register, store, queue, counter, mode and pin that the spec
gives it, unit by unit, and the queue of commands that wait. Registers stand in ONE sparse map by block physical
address (R20); what a register page shows of a unit's own state is computed when it is read. -/

namespace Sys2Proof.Machine

/-! ### Core and contexts -/

/-- The state of a context that is not on the core (R189). The running context is named by `Car.running`, and its
entry here is `ready`. -/
inductive CtxSt where
  | idle | waiting | ready | halted
  deriving DecidableEq, Repr

/-- Whether the next instruction of a context is a delay slot, and where it goes after it (R129, R130). -/
inductive Slot where
  | none
  | notTaken
  | taken (target : Word)
  deriving DecidableEq, Repr

/-- The stack moves that have a safe point after their fourth word (R202). -/
inductive Half where
  | opSpill | opFill | retSpill | retFill
  deriving DecidableEq, Repr

/-- One context: its architectural set (R88, R89), the Carillon state beside it (R185), and what its pipeline holds
between two instructions. A default context is an all-zero slot of the context store. -/
structure Ctx where
  pc : Word := 0
  sw : Word := 0
  acc : BitVec 40 := 0
  la : Bool := false
  ls : BitVec 16 := 0
  ldepth : Nat := 0
  iwn : Nat := 0
  /-- Operand cache, TOS first; its length is OCNT. -/
  oc : List Word := []
  /-- Return cache, newest first; its length is RCNT. -/
  rc : List Word := []
  osp : Word := 0
  rsp : Word := 0
  prog : Word := 0
  /-- CTRL and ENTRY of the context descriptor as the last initialisation took them (R186). -/
  ctrl : Word := 0
  entry : Word := 0
  /-- Descriptor copies DLO, DHI by selector (R100). -/
  segs : List (Nat × (Word × Word)) := []
  st : CtxSt := .idle
  prio : Nat := 0
  pend : Bool := false
  seq : Nat := 0
  fpv : Bool := false
  /-- The value a load has still to put into its result slot (R140), and the slot's depth from the stack's bottom. -/
  load : Option (Nat × Word) := none
  /-- The same for the instruction that is executing; none between two instructions. -/
  landing : Option (Nat × Word) := none
  slot : Slot := .none
  /-- Instructions retired in this cycle (RDICNT). -/
  icnt : Nat := 0
  /-- Instructions retired since initialisation, for the resumption of SAVEL and SAVEU (R153). -/
  retired : Nat := 0
  /-- A chain of fault entries is in progress (R218), and its current stack is the Lantern stack. -/
  chain : Bool := false
  chainLant : Bool := false
  /-- Pending vectors 11, 15 and 16 (R475). -/
  vec11 : Bool := false
  vec15 : Bool := false
  vec16 : Bool := false
  /-- Retirements until vector 15 is raised: 2 as an armed RETI executes, 1 for the instruction it returns to (R441). -/
  vstep : Nat := 0
  /-- The next instruction is the first after RESUME or RETI and matches no comparator (R440). -/
  noMatch : Bool := false
  /-- Context and retired count that an interrupted SAVEL or SAVEU of this context started from (R153). -/
  saveMark : Option (Nat × Nat) := none
  /-- Where the instructions that a mispredicted transfer has had fetched behind its slot come from (R172); none once the
  slot has executed. -/
  wrong : Option Word := none
  /-- The spill or fill that stands at its safe point and goes on with the rest (R202). -/
  half : Option Half := none
  /-- The comparator whose vector 14 is pending: something fell at the safe point of its entry (R216). -/
  vec14 : Option Nat := none
  /-- The context stands at the safe point of a fault entry (R216). -/
  yielded : Bool := false
  deriving DecidableEq, Repr

/-- One store-buffer entry (R166); issuer none is Lantern. -/
structure SbEntry where
  pa : Nat
  size : Nat
  data : Word
  issuer : Option Nat
  deriving DecidableEq, Repr

/-- Why a load holds (R167, R168). -/
inductive HoldKind where
  | uncached | ns | overlap
  deriving DecidableEq, Repr

/-- A load held in X or M: whose it is, its address and size, how its value is extended, and its selector. -/
structure HeldLoad where
  kind : HoldKind
  ctx : Nat
  pa : Nat
  size : Nat
  signed : Bool
  seg : Nat
  /-- Its domain has reset and the load is answered ABORTED (R57). -/
  aborted : Bool := false
  deriving DecidableEq, Repr

/-- Why the core executes nothing (R221, R229, R435). -/
inductive Halt where
  | none | debug | stranded | lockup
  deriving DecidableEq, Repr

/-- What holds a line: the instruction cache, the data cache, the line buffer. -/
inductive CacheId where
  | instr | data | lineBuf
  deriving DecidableEq, Repr

/-- A line fill under way: of the data cache or of the instruction cache, and the address of its line (R170). -/
structure Fill where
  data : Bool
  line : Nat
  /-- Its load did not retire (R184, PIP_WPFILL). -/
  wp : Bool := false
  /-- The 64-bit word of the line that the access itself has checked. -/
  seen : Option Nat := none
  /-- It stands in PIP_ICMISS or PIP_DCMISS already. -/
  counted : Bool := true
  /-- The context whose access requested it; none for Lantern (R228). -/
  issuer : Option Nat := none
  deriving DecidableEq, Repr

/-- A data access of the instruction that executes, as the comparators see it (R439): address, size, store, value. -/
structure DAcc where
  pa : Nat
  size : Nat
  store : Bool
  v : Word
  deriving DecidableEq, Repr

/-- Lantern as the core runs it (R222). -/
structure LanternSt where
  /-- Its status word, in the layout of R94, while it interprets a command (R222). -/
  sw : Word := 0
  /-- Where its code began as it was last entered, or returned to (R222). -/
  pc : Word := 0
  /-- It has the core in a share slot, a context being on it (R199, R209). -/
  slot : Bool := false
  /-- Bytes of its return stack on the Lantern stack above its last frame, and under each frame, the last first (R221). -/
  depth : Nat := 0
  under : List Nat := []
  /-- The greatest number of bytes that its return stack has brought into use since EXC_LSP was last read (R231). -/
  peak : Nat := 0
  /-- Its share of the PIP counters, from PIP_ICMISS to PIP_FWD (R184). -/
  counts : List Nat := []
  deriving DecidableEq, Repr

/-- Pipeline, caches, tables and the one floating-point state. -/
structure Core where
  halt : Halt := .none
  /-- FP stack, F0 first; its length is FDEPTH (R119). -/
  fp : List Word := []
  /-- FPSW[4:0]: IV, DZ, OF, UF, NX (R120). -/
  fpsw : BitVec 5 := 0
  fpown : Option Nat := none
  pin : Bool := false
  /-- The context whose first half of the FP state has been loaded, no transfer having run since, and the FDEPTH it
  read (R205). -/
  fpHalf : Option (Nat × Nat) := none
  /-- The owner whose first half has been saved at safe point 1 (R205). -/
  fpSaved : Option Nat := none
  sb : List SbEntry := []
  held : Option HeldLoad := none
  /-- Cached lines by set, most recently used first (R163, R165). -/
  icache : List (Nat × List Nat) := []
  dcache : List (Nat × List Nat) := []
  lineBuf : Option Nat := none
  fills : List Fill := []
  /-- Lines that carry a parity error, and where they are held (R182). -/
  badPar : List (CacheId × Nat) := []
  bp : List (Nat × BitVec 2) := []
  itt : List (Nat × Option Nat) := []
  gh : BitVec 8 := 0
  /-- Data accesses of the instruction that executes; empty between two instructions. -/
  accs : List DAcc := []
  lantern : LanternSt := {}
  deriving DecidableEq, Repr

/-- One record of the preemption list (R194, R381): the retired count at its boundary, the context, and what it
carries: a source below 128, or `preErr` for an error task, or `preVec` + v for vector v. -/
structure PreRec where
  count : Nat
  ctx : Nat
  what : Nat
  deriving DecidableEq, Repr

/-- Carillon (R185 to R210). -/
structure Car where
  ctxs : List (Nat × Ctx) := []
  running : Option Nat := none
  nextSeq : Nat := 1
  latches : BitVec 128 := 0
  /-- µs time at which each running interval timer fires next (R195). -/
  due : List (Nat × Option Nat) := []
  /-- Instructions retired by all contexts since the cycle's input transfer began (R194). -/
  retired : Nat := 0
  /-- Releases recorded in this cycle for the preemption list, oldest first. -/
  pre : List PreRec := []
  evtOut : BitVec 8 := 0
  /-- A block that has become primary holds its EVT_OUT lines until its first cycle begins (R34). -/
  evtHeld : Bool := false
  /-- Event latencies that have been measured (R198). -/
  measured : Nat := 0
  deriving DecidableEq, Repr

/-! ### Scan cycle -/

/-- The operating mode that MODE[1:0] shows (R33). -/
inductive Mode where
  | stop | run | hold | none
  deriving DecidableEq, Repr

/-- SCN_STAT.PHASE (R294). -/
inductive Phase where
  | idle | input | program | output | housekeeping | pad | force
  deriving DecidableEq, Repr

/-- A staged force change (R285): of a point to a value, a point's removal, or the removal of every force. -/
inductive ForceOp where
  | set (point : Nat) (v : Bool)
  | clear (point : Nat)
  | clearAll
  deriving DecidableEq, Repr

/-- The image engine (R267 to R294). -/
structure Scn where
  mode : Mode := .none
  phase : Phase := .idle
  /-- CYC, 56 bits, in PD0 (R269). -/
  cyc : Nat := 0
  /-- Cycles since the block last entered RUN (RDCYC). -/
  runCyc : Nat := 0
  /-- Stamp breaks to be made before the next cycle (R270). -/
  breaks : Nat := 0
  holdReq : Bool := false
  stopReq : Bool := false
  /-- A required domain has left RUN: STOP at the end of the cycle (R24). -/
  domStop : Bool := false
  /-- Housekeeping has passed H1; H2 to H6 are Lantern's vector 5 entry (R275). -/
  h1Done : Bool := false
  /-- µs time at which the cycle's input transfer began. -/
  tstart : Nat := 0
  /-- µs time at which the watchdog's budget began (R287), and of the watchdog's expiry in this cycle. -/
  wdFrom : Nat := 0
  wdExp : Option Nat := none
  warned : Bool := false
  progFrom : Nat := 0
  /-- Global deterministic mode in force for this cycle (R281). -/
  gdet : Bool := false
  /-- GRACE and LIMIT of SCN_WDOG and the cycle warning in force for this cycle (R294). -/
  stopOut : Bool := false
  hsafe : Bool := false
  wdog : Word := 0x000A0096
  cycwarn : Nat := 0
  padMin : Nat := 0
  /-- What S word 0 of the next cycle reports (R291). -/
  runFirst : Bool := false
  brk : Bool := false
  late : Bool := false
  wdPrev : Bool := false
  holdRel : Bool := false
  genSw : Bool := false
  constP : Bool := false
  imgErr : Bool := false
  /-- A STOP that is under way comes of a class whose STOP a standby would not replay: FAIL is sent with it (R388). -/
  failDue : Bool := false
  /-- An entry to STOP with this cause waits for the output transfer in progress to complete (R282). -/
  stopXfer : Option Nat := none
  /-- µs time at which the output transfer in progress began. -/
  xferT : Nat := 0
  /-- CYC of the last output transfer (R317). -/
  outCyc : Nat := 0
  /-- Longest cycle since entry to RUN (R291). -/
  maxRun : Nat := 0
  staged : List ForceOp := []
  /-- The FORCED output, latched in PD0 (R33). -/
  forced : Bool := false
  /-- The error tasks marked for release, by host-fed station in ascending order (R271). -/
  errTasks : List (Nat × Nat) := []
  /-- The direct releases of the input transfer wait for the running context's next instruction boundary (R194). -/
  directDue : Bool := false
  /-- Sources that step 4 of the input transfer fires (R272, R312, R316, R399). -/
  fires : List Nat := []
  /-- µs time at which housekeeping ended. -/
  hkEnd : Nat := 0
  deriving DecidableEq, Repr

/-! ### Keeper's log, fault classifier, watchdog -/

/-- A record of the keeper's log before its CRC is added (R449): CODE carries CRIT, SOURCE carries bit 8. -/
structure LogRec where
  time : Nat
  start : Nat
  code : Nat
  source : Nat
  data : List Byte
  deriving DecidableEq, Repr

/-- The log writer's input queue, oldest first (its head is the append in progress), the side buffer, and what has frozen
the log since it last was not frozen: 1 LOG_FREEZE, 2 last gasp, 3 both (R477). -/
structure LogSt where
  queue : List LogRec := []
  side : List LogRec := []
  causes : Nat := 0
  deriving DecidableEq, Repr

/-- The buckets and the lasting state of one class, or of one station of classes 13 to 15 (R457, R460). -/
structure FltEnt where
  /-- Bucket number and faults counted in it, newest bucket first. -/
  buckets : List (Nat × Nat) := []
  lasting : Bool := false
  deriving DecidableEq, Repr

/-- Fault classifier and independent watchdog, in PD0. -/
structure Flt where
  /-- By class × 1024 + station (0 for a class that keeps no stations). -/
  ents : List (Nat × FltEnt) := []
  /-- The classifier's own time in µs (R457). -/
  ft : Nat := 0
  /-- The watchdog's last restart in the classifier's time, and its limit in µs: after POR_N PERIOD counted at 4 MHz of a
  clock of 1 MHz or more (R462). -/
  wdtFrom : Nat := 0
  wdtLimit : Nat := 1000000
  wdtWarned : Bool := false
  deriving DecidableEq, Repr

/-! ### Host commands -/

/-- One slot of the ring (R407, R408). -/
structure SlotSt where
  /-- 0 free, 1 submitted, 2 in progress, 3 complete. -/
  st : Nat := 0
  tag : Nat := 0
  code : Nat := 0
  rlen : Nat := 0
  consumed : Bool := false
  restart : Bool := false
  /-- The host wrote the slot after its SUBMIT (R410). -/
  written : Bool := false
  deriving DecidableEq, Repr

/-- A deferred command (R412): its slot, its opcode, and what it waits for, in the numbers of its own rule. -/
structure Job where
  slot : Nat
  op : Nat
  args : List Nat
  deriving DecidableEq, Repr

/-- Host command machinery (R405 to R424). -/
structure Hst where
  slots : List (Nat × SlotSt) := []
  next : Nat := 0
  isOpen : Bool := false
  /-- The slot being interpreted and its 64 words as copied (R410). -/
  interp : Option (Nat × List Word) := none
  jobs : List Job := []
  /-- The current challenge, the challenges issued since the start, and the µs time at which expert access ends. -/
  challenge : Option (BitVec 64) := none
  issued : Nat := 0
  expertUntil : Option Nat := none
  /-- Last answer on the host port: HP_RESP and HP_RDATA (R30). -/
  resp : Nat := 0
  rdata : Word := 0
  deriving DecidableEq, Repr

/-! ### Power, clocks -/

/-- The state of a power domain (R46 to R50, R55): `waking` has PWR_REQ up and waits for its acknowledge; `reset` holds
reset and comes ready with its banks cleared, or kept; `held` is in reset from a block reset until S2; `falling` goes
down from RUN (0) or DOZE (1) and waits for the acknowledge to read 0; `dozing` waits for its accepted requests. -/
inductive DomSt where
  | run | doze | off | held | dozing
  | waking
  | reset (clear : Bool)
  | falling (from0 : Nat)
  deriving DecidableEq, Repr

/-- One power domain. -/
structure Dom where
  st : DomSt := .off
  /-- PWR_ACK as the block sees it. -/
  ack : Bool := false
  /-- A wake request waits: for step 5 of R48, or for PFAIL_N (R52). -/
  wake : Bool := false
  /-- DOZE was asked for while the domain was not in RUN. -/
  dozeAfter : Bool := false
  /-- The acknowledge awaited has timed out already (R49). -/
  late : Bool := false
  /-- µs time at which PWR_REQ changed last. -/
  since : Nat := 0
  deriving DecidableEq, Repr

/-- Block sleep (R53): not asked for, waiting for its reply to be consumed, or asleep. -/
inductive SleepSt where
  | awake | entering | asleep
  deriving DecidableEq, Repr

/-- The tag of a request that is void (R58, R59): what it asked for (0 a load, 1 a copy of the host loader, 2 a digest),
and the requester's and the target's domain, each with its epoch as the request was made. -/
structure ReqTag where
  kind : Nat
  src : Nat
  srcEpoch : Nat
  tgt : Nat
  tgtEpoch : Nat
  deriving DecidableEq, Repr

/-- Power sequencer, resets and straps. -/
structure Pwr where
  doms : List (Nat × Dom) := []
  sleep : SleepSt := .awake
  /-- µs time at which sleep was asked for, then that of its entry; and the slot whose reply is to be consumed first. -/
  sleepAt : Nat := 0
  sleepSlot : Option Nat := none
  /-- Requests that are void and whose replies have not arrived. -/
  voided : List ReqTag := []
  /-- PFAIL_N reads 0. -/
  pfail : Bool := false
  /-- FL_CLK has been lost and PD9 counts as having left RUN (R44). -/
  flStopped : Bool := false
  /-- POR_N reads 0. -/
  por : Bool := true
  /-- The pins CHAIN_ID and PAIR_ROLE. -/
  chainId : BitVec 3 := 0
  pairRole : Bool := false
  deriving DecidableEq, Repr

/-- CLK unit: µs time (R45), the latch of CLK_TIMEHI, the clocks lost now, and the divider of µs time. -/
structure Clk where
  us : Nat := 0
  timeHi : Nat := 0
  lost : BitVec 8 := 0
  /-- CLK_MEAS6 as the divider of µs time has it, and the part of a microsecond, in 1/512, that the count has not yet taken
  while KEEP_CLK drives it. -/
  divider : Nat := 0
  keepFrac : Nat := 0
  deriving DecidableEq, Repr

/-! ### Start sequence, control store, banks -/

/-- A step word (R81). -/
structure StepRec where
  outcome : Nat := 0
  count : Nat := 0
  reason : Nat := 0
  time : Nat := 0
  deriving DecidableEq, Repr

/-- A blob staged at S4 (R68): the ring slot of its LOAD_PATCH, its length, and the result of its check, none before
S5 has judged it. -/
structure Blob where
  slot : Nat
  len : Nat
  res : Option Nat := none
  deriving DecidableEq, Repr

/-- The start record, field by field (R80; CONFIG is the register STR_CFG), and the start sequence (R62 to R87). -/
structure Str where
  startCount : Nat := 0
  cause : Nat := 0
  cold : Bool := false
  restored : Bool := false
  patchless : Bool := false
  steps : List (Nat × StepRec) := []
  entered : Nat := 3
  prevMode : Nat := 3
  /-- MODES.GEN: 0 none, 1 A, 2 B, 3 joined. -/
  gen : Nat := 0
  /-- CURSTEP and STR_STATUS.STEP. -/
  step : Nat := 0
  patches : Nat := 0
  mapout : Nat := 0
  patchIds : List Nat := []
  patchRes : List Nat := []
  lastRun : Nat := 0
  genDigest : List Byte := []
  genLen : Nat := 0
  /-- CONFIG as the start in progress has latched it (R86). -/
  cfg : Word := 0
  halt : Bool := false
  /-- The decision of R67 has been made, and the steps that take their alternative (bit n for Sn). -/
  decided : Bool := false
  alts : Nat := 0
  /-- A command has been processed since S4 opened. -/
  firstDone : Bool := false
  /-- A step has failed and the reset of R82 is to come. -/
  failed : Bool := false
  /-- CLK_MEAS0 as S1 found it (R355). -/
  fcore : Nat := 0
  /-- µs time at which the step in progress began, at which S1 last counted its waiting, and at which a step failed. -/
  stepFrom : Nat := 0
  waitFrom : Nat := 0
  failedAt : Nat := 0
  /-- The record's CRC does not fit its bytes. -/
  crcBad : Bool := false
  blobs : List Blob := []
  /-- S4 has ended; and the slots that stood in the ring as it began and are still to be processed (R68). -/
  s4Ended : Bool := false
  s4Wait : Nat := 0
  /-- Code banks that S2 woke from OFF and so cleared (bit 0 CBA, bit 1 CBB). -/
  cleared : Nat := 0
  /-- S7 found a fault that it could not map out. -/
  s7Bad : Bool := false
  /-- The digest cache in PD3: 32 bytes for each key slot (R37). -/
  digests : List Byte := []
  deriving DecidableEq, Repr

/-- Control store unit (R232 to R254). -/
structure Mcs where
  /-- Microwords and nanowords without their parity bits, by index; an unlisted word is 0. -/
  micro : List (Nat × Nat) := []
  nano : List (Nat × Nat) := []
  /-- Words with bad parity: the index for a microword, 4096 + index for a nanoword; the value has bit 0 for a microword
  or a low half, bit 1 for a high half. -/
  bad : List (Nat × Nat) := []
  /-- LONG bits of the OEM codes in the decoder (R246). -/
  long : BitVec 256 := 0
  /-- The next microword and nanoword of the scrub (R252). -/
  scrubMicro : Nat := 0
  scrubNano : Nat := 0
  deriving DecidableEq, Repr

/-- An error latent in a 64-bit word (R258). -/
inductive EccErr where
  | none | single | double
  deriving DecidableEq, Repr

/-- Banks (R255 to R266): latent errors by 64-bit word number, corrected words that wait to be written back, and the
patrol's next word in each bank. -/
structure MemU where
  ecc : List (Nat × EccErr) := []
  writeback : List Nat := []
  patrol : List (Nat × Nat) := []
  /-- Ranges of XB, address and bytes, that the core port has written since the host port's last command (R260). -/
  xbCore : List (Nat × Nat) := []
  deriving DecidableEq, Repr

/-- The state of a configured field-link station (R306). -/
inductive StnSt where
  | down | up | pending | failed
  deriving DecidableEq, Repr

/-- A field-link station: its configuration (R301), which Lantern keeps in KB, and what its link's controller holds of
it (R304 to R308, R311). -/
structure Stn where
  w : Nat := 1
  ibase : Nat := 0
  qbase : Nat := 0
  pbase : Nat := 0
  /-- The module's safe timeout in ms. -/
  timeout : Nat := 1
  /-- DIR, WBEN and SAFEV of each unit, and SUBST. -/
  dir : List DWord := []
  wben : List DWord := []
  safev : List DWord := []
  subst : List Byte := []
  st : StnSt := .down
  ident : Bool := false
  /-- The unit that the next CONFIG request names. -/
  unit : Nat := 0
  /-- A good DATA response has been written to the shadow input since the station came up (R308). -/
  live : Bool := false
  /-- DATA exchanges since the station came up, modulo 16. -/
  count : Nat := 0
  miss : Nat := 0
  /-- Frame errors since configuration, saturating at 24 bits. -/
  ferr : Nat := 0
  cfgerr : Bool := false
  safe : Bool := false
  /-- The last status block received (R300). -/
  status : DWord := 0
  /-- Its substitutes are still to be written, with a dropout to fire or without (R303, R307). -/
  subDue : Option Bool := none
  /-- Its dropout or return is to fire at the next input transfer (R312). -/
  dropMark : Bool := false
  retMark : Bool := false
  /-- µs time from which its outputs go safe, for the governor's members (R338). -/
  safeAt : List Nat := []
  deriving DecidableEq, Repr

/-- The state of a host-fed station (R314). -/
inductive HfSt where
  | down | up | failed
  deriving DecidableEq, Repr

/-- A host-fed station: its configuration and Lantern's record of its feeds (R301, R314, R315, R317). -/
structure HfStn where
  wi : Nat := 0
  wq : Nat := 0
  errctx : Nat := 0
  ibase : Nat := 0
  qbase : Nat := 0
  pbase : Nat := 0
  /-- The freshness timeout in units of 100 ms. -/
  timeout : Nat := 300
  subst : List Byte := []
  st : HfSt := .down
  /-- No fresh feed since the station was configured. -/
  never : Bool := true
  /-- The µs time at which the data in the image was sampled. -/
  sample : Int := 0
  age : Nat := 0
  hseq : Nat := 0
  accepted : Nat := 0
  stale : Nat := 0
  superseded : Nat := 0
  /-- As for a field-link station. -/
  subDue : Option Bool := none
  dropMark : Bool := false
  retMark : Bool := false
  deriving DecidableEq, Repr

/-- The exchange that a link's controller has begun (R304): the station, the type (0 DATA, 1 CONFIG, 3 IDENT), SEQ, STS,
the unit of a CONFIG, and the request as sent. -/
structure Exch where
  stn : Nat
  typ : Nat
  seq : Nat
  sts : Bool
  unit : Nat
  tx : List Byte
  deriving DecidableEq, Repr

/-- A field link's controller. -/
structure Link where
  exch : Option Exch := none
  /-- The next request's SEQ, and the lowest address that this round has still to visit. -/
  seq : Nat := 0
  next : Nat := 0
  /-- µs time at which the round began, and FLK_LCFG as the round has it in force. -/
  from_ : Nat := 0
  cfg : Option Word := none
  /-- A frame held while the engine holds the bank (R272): the station, its inputs, its status block if any, and SAFE. -/
  held : Option (Nat × List DWord × Option DWord × Bool) := none
  /-- The STROBE frame that the link sends: its channel, the bindings it carries with their values, and its bytes. -/
  strobe : Option (Nat × List (Nat × Bool) × List Byte) := none
  deriving DecidableEq, Repr

/-- Work that Lantern has staged for H2 (R303, R313, R345), in acceptance order. -/
inductive Staged where
  | station (block : List Byte)
  | feed (stn age hseq : Nat) (data : List DWord)
  | beat (ws : List (Nat × Word))
  | gov (ws : List (Nat × Word))
  deriving DecidableEq, Repr

/-- Field links and stations (R295 to R321). The stations' configuration and the copies of the FLK, BEA and GOV pages
lie in KB; the controllers lie in PD9. -/
structure Flk where
  /-- Field-link stations by 32 × link + address, and host-fed stations by number. -/
  stns : List (Nat × Option Stn) := []
  hfs : List (Nat × Option HfStn) := []
  links : List (Nat × Link) := []
  staged : List Staged := []
  /-- S words whose next copy fires no source (R303). -/
  quiet : List Nat := []
  /-- Stations whose S word waits for the engine to release the bank (R319): 256 and more for host-fed stations. -/
  due : List Nat := []
  /-- The copy in KB of configuration registers by address, and of the governor's member table (R320, R345). -/
  copy : List (Nat × Word) := []
  tab : List (Nat × Word) := []
  deriving DecidableEq, Repr

/-- A phase source (R323 to R325). -/
structure Src where
  /-- PH and INC of a mains source. -/
  ph : Nat := 0
  inc : Nat := 0
  first : Bool := true
  /-- Consecutive accepted edges with a small error, and with INC clamped; wraps since the last accepted edge. -/
  good : Nat := 0
  clamped : Nat := 0
  wraps : Nat := 0
  lock : Bool := false
  /-- CNT, the levels of A and B of an encoder source; the phase before its last count, or before the last forward correction of a
  mains source. -/
  cnt : Nat := 0
  a : Bool := false
  b : Bool := false
  prev : Nat := 0
  rev : Bool := false
  /-- BEAT cycles between the last two counts, and the time of the last one in BEAT cycles. -/
  interval : Nat := 0
  last : Option Nat := none
  deriving DecidableEq, Repr

/-- What the start point of a channel's strobe on a link, once it is reached, has brought until the channel's match (R334, R335): the
strobe may start, it is late, nothing is left to do, or it may still start although the match has come at the same instant. -/
inductive StartPt where
  | may | late | done | after
  deriving DecidableEq, Repr

/-- A capture (R328). -/
structure Cap where
  phase : Nat
  time : Nat
  lsrc : Bool
  lcap : Bool
  dir : Bool
  merged : Bool
  inc : Nat
  deriving DecidableEq, Repr

/-- The Beat unit (R322 to R336). -/
structure Bea where
  srcs : List (Nat × Src) := []
  /-- BEAT cycles since µs time last advanced, 0 to 99. -/
  frac : Nat := 0
  /-- Captures not yet visible, by channel. -/
  caps : List (Nat × Option Cap) := []
  /-- Channels that have matched since the last count of their encoder source. -/
  done : BitVec 16 := 0
  /-- The strobed image, the staging and the ready values with their validity, by binding. -/
  strobed : BitVec 256 := 0
  staging : BitVec 256 := 0
  ready : BitVec 256 := 0
  isReady : BitVec 256 := 0
  /-- µs time since which a binding's ready value has differed from its strobed value. -/
  since : List (Nat × Option Nat) := []
  /-- Start points reached since the channel's last match, by channel and link. -/
  starts : List (Nat × Nat × StartPt) := []
  deriving DecidableEq, Repr

/-- One governor group (R340, R342, R343). -/
structure Grp where
  /-- Charges by bucket, newest first. -/
  charges : List (Nat × Nat) := []
  sag : Bool := false
  /-- µs time of the last pass 1 that found a report while the group was in sag. -/
  seen : Nat := 0
  defer : Bool := false
  defcnt : Nat := 0
  deriving DecidableEq, Repr

/-- The energy governor in PD7 (R337 to R343): the member table, E and OFF by member entry, and the groups. -/
structure Gov where
  tab : List (Nat × Word) := []
  e : List (Nat × Bool) := []
  off : List (Nat × Nat) := []
  grps : List (Nat × Grp) := []
  deriving DecidableEq, Repr

/-- A pending commit (R355): the slot of its COMMIT_GENERATION, TARGET, the XB range of the report, and the µs time at
which it was accepted. -/
structure Commit where
  slot : Nat
  target : Nat
  report : Nat
  replen : Nat
  at_ : Nat
  deriving DecidableEq, Repr

/-- Online change (R349 to R371). -/
structure Olc where
  /-- The verified digests of CBA, CBB and both joined; empty where the target is not verified (R353, R354). -/
  digA : List Byte := []
  digB : List Byte := []
  digJ : List Byte := []
  commit : Option Commit := none
  /-- PATCH_CONST packets staged for H5: the slot and the 64 words (R368). -/
  consts : List (Nat × List Word) := []
  deriving DecidableEq, Repr

/-- A Beacon frame (R375), its CRC apart: TYPE, FIRST, LAST, SEQ, CYC[15:0] and the payload. -/
structure BFrame where
  typ : Nat
  first : Bool
  last : Bool
  seq : Nat
  cyc : Nat
  ws : List DWord
  deriving DecidableEq, Repr

/-- A preemption entry that a standby has received (R381): CYC[15:0] of its frame, COUNT, CTX, KIND, SRC, DIRECT, and the
capture words BEA_CAPPm, BEA_CAPTm and BEA_CAPFm that it carries. -/
structure PreIn where
  cyc : Nat
  count : Nat
  ctx : Nat
  kind : Nat
  src : Nat
  direct : Bool
  cap : Option (Word × Word × Word)
  deriving DecidableEq, Repr

/-- One item of a housekeeping record: ITEM and the words that follow its header (R383). -/
structure HkItem where
  item : Nat
  ws : List DWord
  deriving DecidableEq, Repr

/-- A housekeeping record as a standby holds it: CYC[15:0], the items, and whether the closing frame has arrived. -/
structure HkRec where
  cyc : Nat
  items : List HkItem
  closed : Bool
  deriving DecidableEq, Repr

/-- Where a primary's resynchronisation of its partner stands (R387). -/
inductive Resync where
  | none | bulk | converge | final
  deriving DecidableEq, Repr

/-- The pair (R372 to R392). -/
structure Bcn where
  /-- BCN_STAT.ROLE. -/
  role : Nat := 0
  rxlock : Bool := false
  /-- SEQ of the next frame sent, and the retain buffer, oldest first (R377). -/
  seq : Nat := 0
  retain : List BFrame := []
  /-- SEQ of the next frame expected, frames held ahead of a gap, and NAK. -/
  expect : Option Nat := none
  held : List BFrame := []
  nak : Bool := false
  /-- Something of the line has been lost since the last frame that was expected or sent again; and the SEQ that follows the last
  held frame that came again (R377). -/
  gapBad : Bool := false
  lastAgain : Option Nat := none
  /-- The frames that the last NAK has had sent again, in SEQ order (R377). -/
  again : List BFrame := []
  /-- µs times of the last good frame, of the last DELTA and of the last frame sent. -/
  lastRx : Option Nat := none
  lastDelta : Nat := 0
  lastTx : Nat := 0
  /-- What the partner last reported: its role, its mode, and its HELLO. -/
  partnerRole : Nat := 0
  partnerMode : Nat := 3
  hello : Option (List DWord) := none
  /-- The partner is in role 4; it has reported a divergence; this block became primary with this cycle. -/
  sync : Bool := false
  diverged : Bool := false
  taken : Bool := false
  /-- BCN_STAT.LASTDIV. -/
  lastDiv : Nat := 0
  /-- Length of the last cycle in µs (R388). -/
  lastLen : Nat := 0
  /-- Retired count at which the last cycle ended (FINAL, R379), and the S words that the last input transfer changed. -/
  final : Nat := 0
  sChanged : List Nat := []
  /-- A standby's DELTA records not yet started, preemption entries not yet applied, horizons and MARK 1 counts by
  CYC[15:0], and housekeeping records. -/
  deltas : List (List DWord) := []
  entries : List PreIn := []
  horizons : List (Nat × Nat) := []
  marks : List (Nat × Nat) := []
  hks : List HkRec := []
  /-- A primary's preemption records already sent in this cycle, the items of its housekeeping record not yet sent,
  whether the first part has left, and the retired count of its last horizon. -/
  relSent : Nat := 0
  items : List HkItem := []
  hkFirst : Bool := false
  lastHzn : Nat := 0
  /-- What the last STN, HFS and GOV items told of stations and members, by station or entry. -/
  toldStn : List (Nat × List DWord) := []
  toldHf : List (Nat × List DWord) := []
  toldGov : List (Nat × List DWord) := []
  /-- The last housekeeping's output signature and what the output transfer changed of the shadow output. -/
  sig : DWord := 0
  /-- CYC of the cycle of that signature (R376). -/
  sigCyc : Nat := 0
  /-- µs time of the last good DIR 0 request seen on an enabled link (R389). -/
  busSeen : Option Nat := none
  /-- A takeover has been decided at this µs time and waits for the bus guard; a takeover is completing cycle N (R390). -/
  decided : Option Nat := none
  taking : Bool := false
  /-- TAKEOVER asks the primary to hand off at the end of its cycle (R400). -/
  handoff : Bool := false
  /-- Resynchronisation: its phase, its converge passes, the dirty 4 KiB pages, and when a new attempt begins. -/
  resync : Resync := .none
  passes : Nat := 0
  dirty : List Nat := []
  passSet : List Nat := []
  retryAt : Option Nat := none
  /-- Resynchronisations that have failed (R387). -/
  failed : Nat := 0
  /-- The closing STATE frame has arrived: role 4 comes with the next DELTA. -/
  closing : Bool := false
  deriving DecidableEq, Repr

/-- A Chain frame (R394), its CRC apart. -/
structure CFrame where
  typ : Nat
  orig : Nat
  rnd : Nat
  ws : List DWord
  deriving DecidableEq, Repr

/-- The cascade (R393 to R397). -/
structure Chn where
  rxlock : Bool := false
  /-- RND of this cycle, the token's VALID, and a token that waits for the next start: RND and VALID. -/
  rnd : Nat := 0
  valid : Nat := 0
  token : Option (Nat × Nat) := none
  alone : Bool := false
  ringok : Bool := false
  /-- Slots received good: member, RND and words; and RND of the content of each slot of the area. -/
  got : List (Nat × Nat × List DWord) := []
  srnd : List (Nat × Nat) := []
  written : Nat := 0
  stale : Nat := 0
  /-- The master has waited TTO for slots; its last token has come back. -/
  waited : Bool := false
  tokenBack : Bool := false
  /-- The frame sent last. -/
  tx : Option CFrame := none
  deriving DecidableEq, Repr

/-- A grant as Lantern keeps it in KB (R431): LEVEL, WDHOLD, SLOT, LAST. -/
structure Grant where
  level : Nat
  wdhold : Bool
  slot : Nat
  last : Nat
  deriving DecidableEq, Repr

/-- A debugger's request: SEQ, OP, ADDR, DATA (R427). -/
structure DbgReq where
  seq : Nat
  op : Nat
  addr : Nat
  data : Word
  deriving DecidableEq, Repr

/-- The debug unit (R425 to R447). -/
structure Dbg where
  conn : Bool := false
  /-- The time unit T in sixteenths of a ns. -/
  unitT : Nat := 0
  /-- The last request and its response: ACK and data; no response while it is in progress. -/
  req : Option DbgReq := none
  resp : Option (Nat × Option Word) := none
  /-- A halt request waits: its cause and comparator (R443). -/
  hreq : Option (Nat × Nat) := none
  /-- The context at the halt, none for NOCTX, and the mode to return to. -/
  ctx : Option Nat := none
  back : Mode := .none
  /-- The step in progress: its context; and it has reached its end. -/
  step : Option Nat := none
  stepDone : Bool := false
  /-- The response sent last: SEQ, ACK, data. -/
  tx : Option (Nat × Nat × Option Word) := none
  /-- Remaining time of the independent watchdog while a grant holds it (R436). -/
  wdLeft : Option Nat := none
  grant : Option Grant := none
  /-- Trace FIFO, packets formed since the last SYNC, and packets lost since the last OVERFLOW (R443, R444). -/
  fifo : List Byte := []
  packets : Nat := 0
  lostPkts : Nat := 0
  deriving DecidableEq, Repr

/-! ### The whole block -/

/-- The state of the block. -/
structure State where
  /-- Commands that wait, first in, first out. -/
  pending : List Instr := []
  /-- The banks by block physical address (R18). -/
  mem : List Host.Cell := []
  /-- Register values by block physical address; an unlisted register holds its Reset value (R8). -/
  regs : List (Nat × Word) := []
  core : Core := {}
  car : Car := {}
  scn : Scn := {}
  log : LogSt := {}
  flt : Flt := {}
  hst : Hst := {}
  pwr : Pwr := {}
  clk : Clk := {}
  str : Str := {}
  mcs : Mcs := {}
  banks : MemU := {}
  flk : Flk := {}
  bea : Bea := {}
  gov : Gov := {}
  olc : Olc := {}
  bcn : Bcn := {}
  chn : Chn := {}
  dbg : Dbg := {}
  /-- Free values taken so far (a field of the model, not of the spec). -/
  free : Nat := 0
  deriving DecidableEq, Repr

/-- Why the block stops with a fault. None of the spec's conditions stops the block as a whole, so no meaning raises
one: a condition the spec describes is part of the next state. -/
inductive Fault where
  /-- Raised by no meaning; safe. -/
  | none
  deriving DecidableEq, Repr

/-- Why a command is refused. -/
inductive Refusal where
  /-- A command that has no meaning yet, by its mnemonic; safe. -/
  | notModelled (mnemonic : String)
  deriving DecidableEq, Repr

/-- The block at cold reset, POR_N at 0 (R54): every store empty, every register at its Reset value. -/
def State.reset : State := {}

end Sys2Proof.Machine
end

