-- ==== Sys2Proof/Machine/Base.lean ====
section
/-! DEFINITION. The operations every unit uses: register fields, bytes of the banks, power domains, µs time, records
handed to the log writer, host interrupts, replies of ring slots, and the firing of an event source. -/

namespace Sys2Proof.Machine

/-! ### Registers (R8) -/

/-- The value a register holds. -/
def State.reg (s : State) (a : Nat) : Word := Map.get resetValue s.regs a

/-- Set the value a register holds. -/
def State.setReg (s : State) (a : Nat) (v : Word) : State := { s with regs := Map.set resetValue s.regs a v }

/-- A field of a register, as a number. -/
def State.f (s : State) (a hi lo : Nat) : Nat := fld (s.reg a) hi lo

/-- Set a field of a register. -/
def State.setF (s : State) (a hi lo v : Nat) : State := s.setReg a (setFld (s.reg a) hi lo v)

/-- Set a bit of a register to 1. -/
def State.setB (s : State) (a i : Nat) : State := s.setF a i i 1

/-- Count 1 in a saturating counter field. -/
def State.bump (s : State) (a hi lo : Nat) : State :=
  s.setF a hi lo (satInc (s.f a hi lo) (2 ^ (hi + 1 - lo) - 1))

/-- Count 1 in a saturating 32-bit counter. -/
def State.count (s : State) (a : Nat) : State := s.bump a 31 0

/-- Registers shown through a page of another domain but held in PD0 (R372, R403). -/
def heldInPd0 (a : Nat) : Bool :=
  a == Reg.BCN_CFG || a == Reg.BCN_TIME || a == Reg.BCN_REPL || a == Reg.CHN_CFG || a == Reg.CHN_MBASE
    || a == Reg.CHN_TIME

/-- Put every register of a power domain back to its Reset value (R8). -/
def State.resetRegs (s : State) (pd : Nat) : State :=
  { s with regs := Map.drop (fun a => pageDomain (pageOf a) == pd && decide (regBase ≤ a) && !heldInPd0 a) s.regs }

/-! ### Bytes of the banks -/

/-- What a byte that nothing has written reads as: 0, as R47 and R65 clear every bank, and in the boot ROM its contents,
of which Lantern cannot read the key-derivation constant (R66). -/
def memDefault (a : Nat) : Byte :=
  if a < 0x740000 ∨ 0x750000 ≤ a then 0
  else if 0x740F00 ≤ a ∧ a < 0x740F20 then 0
  else Config.romByte (a - 0x740000)

/-- Memory in canonical form: addresses strictly rising, nothing listed that an unlisted address reads as. -/
abbrev Memory.wf (m : List Host.Cell) : Bool := Map.wf memDefault m

/-- The byte at a block physical address. -/
def State.byte (s : State) (a : Nat) : Byte := Map.get memDefault s.mem a

/-- The n bytes from an address, as a number, the least significant first (R4). -/
def State.mread (s : State) (a n : Nat) : Nat := ofBytes ((rangeFrom a n).map s.byte)

/-- The 32-bit word at an address. -/
def State.w32 (s : State) (a : Nat) : Word := BitVec.ofNat 32 (s.mread a 4)

/-- The 64-bit word at an address. -/
def State.w64 (s : State) (a : Nat) : DWord := BitVec.ofNat 64 (s.mread a 8)

/-- Put a number into an ascending list without repeats. -/
def insertNat (n : Nat) : List Nat → List Nat
  | [] => [n]
  | m :: t => if n < m then n :: m :: t else if n = m then m :: t else m :: insertNat n t

/-- The 4 KiB pages of DB, SB and IB that a range of n bytes from an address touches (R387). -/
def pagesOf (a n : Nat) : List Nat :=
  (rangeFrom (a / 4096) ((a + n - 1) / 4096 + 1 - a / 4096)).filter fun p => decide (0x400 ≤ p) && decide (p < 0x6C0)

/-- A write marks its pages dirty while a resynchronisation runs (R387). -/
def State.markDirty (s : State) (a n : Nat) : State :=
  if s.bcn.resync = .none ∨ n = 0 then s else
  { s with bcn := { s.bcn with dirty := (pagesOf a n).foldl (fun l p => insertNat p l) s.bcn.dirty } }

/-- Write a list of bytes from an address. -/
def State.mwriteBytes (s : State) (a : Nat) (bs : List Byte) : State :=
  { s.markDirty a bs.length with mem := Map.setAll memDefault s.mem a bs }

/-- Write the n low bytes of a number from an address. -/
def State.mwrite (s : State) (a n v : Nat) : State := s.mwriteBytes a (toBytes v n)

/-- The error latent in the 64-bit word of an address (R258). -/
def State.eccAt (s : State) (a : Nat) : EccErr := Map.get (fun _ => .none) s.banks.ecc (a / 8)

/-- Set or clear the error latent in the 64-bit word of an address. -/
def State.setEcc (s : State) (a : Nat) (e : EccErr) : State :=
  { s with banks := { s.banks with ecc := Map.set (fun _ => .none) s.banks.ecc (a / 8) e } }

/-- Write the whole 64-bit word at an address: it takes new check bits (R256). -/
def State.put64 (s : State) (a : Nat) (v : DWord) : State := (s.setEcc a .none).mwrite a 8 v.toNat

/-- Every byte of an address range reads 0 (R47). -/
def State.mclear (s : State) (lo hi : Nat) : State :=
  { s.markDirty lo (hi + 1 - lo) with mem := Map.drop (fun a => decide (lo ≤ a) && decide (a ≤ hi)) s.mem }

/-! ### Contexts -/

/-- Context n. -/
def State.ctx (s : State) (n : Nat) : Ctx := Map.get (fun _ => {}) s.car.ctxs n

/-- Replace context n. -/
def State.setCtx (s : State) (n : Nat) (c : Ctx) : State :=
  { s with car := { s.car with ctxs := Map.set (fun _ => {}) s.car.ctxs n c } }

/-- Change context n. -/
def State.updCtx (s : State) (n : Nat) (g : Ctx → Ctx) : State := s.setCtx n (g (s.ctx n))

/-! ### Power domains -/

/-- Power domain n; PD0 is always in RUN (R46). -/
def State.dom (s : State) (n : Nat) : Dom :=
  if n = 0 then { st := .run, ack := true } else Map.get (fun _ => {}) s.pwr.doms n

/-- Replace power domain n. -/
def State.setDom (s : State) (n : Nat) (d : Dom) : State :=
  { s with pwr := { s.pwr with doms := Map.set (fun _ => {}) s.pwr.doms n d } }

/-- Domain n is in RUN, as it is until it enters the DOZE that it is asked for (R50). PD9 counts as having left RUN from a loss of FL_CLK on (R44). -/
def State.inRun (s : State) (n : Nat) : Bool :=
  (decide ((s.dom n).st = .run) || decide ((s.dom n).st = .dozing)) && !(decide (n = 9) && s.pwr.flStopped)

/-- A request to domain n is served: the domain is in RUN, or in DOZE, from which the request wakes it (R50). -/
def State.serves (s : State) (n : Nat) : Bool :=
  decide ((s.dom n).st = .run) || decide ((s.dom n).st = .doze) || decide ((s.dom n).st = .dozing)

/-- How PWR_STAT shows a domain's state (R60). -/
def DomSt.code : DomSt → Nat
  | .run => 0
  | .doze => 1
  | .off => 2
  | .dozing => 0
  | _ => 3

/-- PWR_STAT (R60). -/
def State.pwrStat (s : State) : Word :=
  (List.range 12).foldl (fun w n => setFld w (2 * n + 1) (2 * n) (s.dom n).st.code) 0

/-- Domain n's epoch (R60). -/
def epochReg (n : Nat) : Nat := Reg.PWR_EPOCH0 + 4 * ((n - 1) / 4)
def State.epoch (s : State) (n : Nat) : Nat := s.f (epochReg n) (8 * ((n - 1) % 4) + 7) (8 * ((n - 1) % 4))

/-- A domain's reset asserts: its 8-bit epoch counts on (R48). -/
def State.nextEpoch (s : State) (n : Nat) : State :=
  s.setF (epochReg n) (8 * ((n - 1) % 4) + 7) (8 * ((n - 1) % 4)) (s.epoch n + 1)

/-- The role of the block in its pair, BCN_STAT.ROLE (R372). -/
def State.role (s : State) : Nat := s.bcn.role

/-- The block is a standby: role 2, 3 or 4 (R372). -/
def State.standby (s : State) : Bool := decide (2 ≤ s.role)

/-- The block follows a primary: a standby that is not completing a takeover (R372, R390). -/
def State.follows (s : State) : Bool := s.standby && !s.bcn.taking

/-- The encoding of MODE[1:0] (R33). -/
def Mode.code : Mode → Nat
  | .stop => 0
  | .run => 1
  | .hold => 2
  | .none => 3

/-- SCN_STAT.PHASE (R294). -/
def Phase.code : Phase → Nat
  | .idle => 0
  | .input => 1
  | .program => 2
  | .output => 3
  | .housekeeping => 4
  | .pad => 5
  | .force => 6

/-! ### Host interrupts and attention (R420) -/

/-- Cause k of HP_IRQ arises. -/
def State.irq (s : State) (k : Nat) : State := s.setB Reg.HST_IRQ k

/-- An attention event: 0 MODE, 1 LASTING, 2 LOG. Its bit of HST_ATTN becomes 1, and with that cause 1 arises; a bit that is 1 already
changes nothing (R420). -/
def State.attn (s : State) (k : Nat) : State :=
  if bit (s.reg Reg.HST_ATTN) k then s else (s.setB Reg.HST_ATTN k).irq 1

/-- Move domain n to a state; a change of its PWR_STAT field is a cause of HP_IRQ[3] (R420). -/
def State.moveDom (s : State) (n : Nat) (st : DomSt) : State :=
  let d := s.dom n
  let s' := s.setDom n { d with st := st }
  if d.st.code = st.code then s' else s'.irq 3

/-- A request reaches domain n: one in DOZE returns to RUN; one that is asked to doze serves it before it does (R50). -/
def State.touch (s : State) (n : Nat) : State :=
  match (s.dom n).st with
  | .doze => s.moveDom n .run
  | _ => s

/-! ### Log records (R449, R451) -/

/-- Hand a record to the log writer: TIME and START are taken now; a record that finds the queue full is lost and
counted. The queue is the append in progress and 16 records behind it. -/
def State.logPut (s : State) (code source : Nat) (data : List Byte) : State :=
  if s.log.queue.length < 17 then
    { s with log := { s.log with
        queue := s.log.queue ++ [⟨s.clk.us % 2 ^ 48, s.str.startCount, code, source, data⟩] } }
  else s.count Reg.LOG_LOST

/-! ### Replies (R408 to R410) -/

/-- Slot n of the ring. -/
def State.slot (s : State) (n : Nat) : SlotSt := Map.get (fun _ => {}) s.hst.slots n

/-- Replace slot n of the ring. -/
def State.setSlot (s : State) (n : Nat) (x : SlotSt) : State :=
  { s with hst := { s.hst with slots := Map.set (fun _ => {}) s.hst.slots n x } }

/-- XB, and the ring slot n in it (R406). -/
abbrev xbBase : Nat := 0x6C0000
def slotAddr (n : Nat) : Nat := xbBase + 256 * n

/-- The reply codes (R409). -/
abbrev rOK : Nat := 0x00
abbrev rPENDING : Nat := 0x01
abbrev rPARAM : Nat := 0x02
abbrev rMODE : Nat := 0x03
abbrev rAUTH : Nat := 0x04
abbrev rBUSY : Nat := 0x05
abbrev rCOLLIDED : Nat := 0x06
abbrev rABORTED : Nat := 0x07
abbrev rUNKNOWN : Nat := 0x08

/-- Slot n is complete, its reply body being in place: STATE 3 with CODE and RLEN, then the cause of HP_IRQ[0] (R410). -/
def State.completed (s : State) (n code rlen : Nat) : State :=
  let s := s.setSlot n { s.slot n with st := 3, code := code, rlen := rlen, consumed := false, restart := false }
  let s := if code = rABORTED then s.count Reg.HST_ABTCNT else s
  (s.irq 0).count Reg.HST_CMDCNT

/-- Take the first deferred command that satisfies a test out of the list (R412). -/
def takeJob (p : Job → Bool) : List Job → Option Job × List Job
  | [] => (none, [])
  | j :: t => if p j then (some j, t) else
    match takeJob p t with
    | (r, t') => (r, j :: t')

/-- Complete the first deferred command that satisfies a test, with no reply body. -/
def State.finishJob (s : State) (p : Job → Bool) (code : Nat) : State :=
  match takeJob p s.hst.jobs with
  | (some j, rest) => ({ s with hst := { s.hst with jobs := rest } }).completed j.slot code 0
  | (none, _) => s

/-! ### Free values -/

/-- Advance the count of free values taken. -/
def State.tickFree (s : State) : State := { s with free := s.free + 1 }

end Sys2Proof.Machine
end

