-- ==== Sys2Proof/Machine/Crypto.lean ====
section
/-! DEFINITION. The checks and ciphers that the spec names by their standards: CRC-32 (R80, R297, R449), CRC-64 (R385)
and CRC-8 (R427); SHA-256, AES-256-GCM and ECDSA over P-256 (R69 to R72). -/

namespace Sys2Proof.Machine

/-! ### CRC -/

/-- One bit step of the reflected CRC-32. -/
def crc32Bit (c : Nat) : Nat := if c % 2 = 1 then (c / 2) ^^^ 0xEDB88320 else c / 2

/-- n bit steps of a register. -/
def bitSteps (f : Nat → Nat) : Nat → Nat → Nat
  | 0, c => c
  | n + 1, c => bitSteps f n (f c)

/-- CRC-32, IEEE 802.3 polynomial, reflected, initial and final value all ones. -/
def crc32 (bs : List Byte) : Nat :=
  (bs.foldl (fun c b => bitSteps crc32Bit 8 (c ^^^ b.toNat)) 0xFFFFFFFF) ^^^ 0xFFFFFFFF

/-- One bit step of an unreflected CRC of a width. -/
def crcBit (width poly c : Nat) : Nat :=
  if c / 2 ^ (width - 1) % 2 = 1 then (c * 2 % 2 ^ width) ^^^ poly else c * 2 % 2 ^ width

/-- CRC-8 with x⁸ + x² + x + 1, unreflected, initial value 0. -/
def crc8 (bs : List Byte) : Nat := bs.foldl (fun c b => bitSteps (crcBit 8 7) 8 (c ^^^ b.toNat)) 0

/-- CRC-64 with the ECMA-182 polynomial, unreflected, from an initial value. -/
def crc64 (init : Nat) (bs : List Byte) : Nat :=
  bs.foldl (fun c b => bitSteps (crcBit 64 0x42F0E1EBA9EA3693) 8 (c ^^^ (b.toNat * 2 ^ 56))) init

/-! ### SHA-256 -/

/-- The first 64 primes: below 17², what no prime up to 17 divides. -/
def primes64 : List Nat :=
  (List.range 312).filter fun n => decide (2 ≤ n) && [2, 3, 5, 7, 11, 13, 17].all fun p => decide (n = p) || decide (n % p ≠ 0)

/-- The greatest number below 2^n whose k-th power does not exceed v. -/
def rootDown (k v : Nat) : Nat → Nat
  | 0 => 0
  | n + 1 => let r := rootDown k (v / 2 ^ k) n
    if (2 * r + 1) ^ k ≤ v then 2 * r + 1 else 2 * r

/-- The first 32 bits of the fractional part of the k-th root of a prime. -/
def rootBits (k p : Nat) : Word := BitVec.ofNat 32 (rootDown k (p * 2 ^ (32 * k)) 40)

/-- A hash state as two queues of four words each, the newest first: a, b, c, d and e, f, g, h of FIPS 180-4. -/
abbrev ShaQueues := List Word × List Word

/-- The exclusive or of a word turned right by each of three amounts. -/
def turns (w : Word) (i j k : Nat) : Word := w.rotateRight i ^^^ w.rotateRight j ^^^ w.rotateRight k

/-- Word i of a queue. -/
def nth (q : List Word) (i : Nat) : Word := q.getD i 0

/-- The message schedule, the newest word first, grows by n words. -/
def shaExtend : Nat → List Word → List Word
  | 0, w => w
  | n + 1, w =>
    let far := nth w 14
    let near := nth w 1
    let low := far.rotateRight 7 ^^^ far.rotateRight 18 ^^^ (far >>> 3)
    let high := near.rotateRight 17 ^^^ near.rotateRight 19 ^^^ (near >>> 10)
    shaExtend n ((nth w 15 + low + nth w 6 + high) :: w)

/-- One round with a round constant and a schedule word: both queues take a new word. -/
def shaRound (q : ShaQueues) (k w : Word) : ShaQueues :=
  let e := nth q.2 0
  let choice := nth q.2 2 ^^^ (e &&& (nth q.2 1 ^^^ nth q.2 2))
  let most := (nth q.1 0 &&& (nth q.1 1 ||| nth q.1 2)) ||| (nth q.1 1 &&& nth q.1 2)
  let mix := nth q.2 3 + turns e 6 11 25 + choice + k + w
  (((mix + turns (nth q.1 0) 2 13 22 + most) :: q.1).take 4, ((nth q.1 3 + mix) :: q.2).take 4)

/-- The words of a list of bytes, the most significant byte first. -/
def beWords : List Byte → List Word
  | a :: b :: c :: d :: t => BitVec.ofNat 32 (ofBytes [d, c, b, a]) :: beWords t
  | _ => []

/-- The rounds over a list of primes and schedule words. -/
def shaRounds : List Nat → List Word → ShaQueues → ShaQueues
  | p :: ps, w :: ws, q => shaRounds ps ws (shaRound q (rootBits 3 p) w)
  | _, _, q => q

/-- One block of 16 words. -/
def shaBlock (q : ShaQueues) (ws : List Word) : ShaQueues :=
  let r := shaRounds primes64 (shaExtend 48 ws.reverse).reverse q
  (List.zipWith (· + ·) q.1 r.1, List.zipWith (· + ·) q.2 r.2)

/-- The initial hash state: square roots of the first eight primes. -/
def shaInit : ShaQueues := ((primes64.take 4).map (rootBits 2), ((primes64.drop 4).take 4).map (rootBits 2))

/-- The blocks of a message, `fuel` at most. -/
def shaBlocks : Nat → ShaQueues → List Word → ShaQueues
  | 0, q, _ => q
  | n + 1, q, ws => if ws.isEmpty then q else shaBlocks n (shaBlock q (ws.take 16)) (ws.drop 16)

/-- A number as n bytes, the most significant first. -/
def beBytes (v n : Nat) : List Byte := (toBytes v n).reverse

/-- The number that bytes spell, the most significant first. -/
def ofBe (bs : List Byte) : Nat := bs.foldl (fun v b => v * 256 + b.toNat) 0

/-- SHA-256 of a list of bytes: 32 bytes. -/
def sha256 (bs : List Byte) : List Byte :=
  let n := bs.length
  let padded := bs ++ [0x80] ++ List.replicate ((119 - n % 64) % 64) 0 ++ beBytes (8 * n) 8
  let h := shaBlocks (padded.length / 64) shaInit (beWords padded)
  (h.1 ++ h.2).flatMap fun w => beBytes w.toNat 4

/-! ### ECDSA over P-256 -/

namespace P256

def p : Nat := 0xFFFFFFFF00000001000000000000000000000000FFFFFFFFFFFFFFFFFFFFFFFF
def n : Nat := 0xFFFFFFFF00000000FFFFFFFFFFFFFFFFBCE6FAADA7179E84F3B9CAC2FC632551
def b : Nat := 0x5AC635D8AA3A93E7B3EBBD55769886BC651D06B0CC53B0F63BCE3C3E27D2604B
def gx : Nat := 0x6B17D1F2E12C4247F8BCE6E563A440F277037D812DEB33A0F4A13945D898C296
def gy : Nat := 0x4FE342E2FE1A7F9B8EE7EB4A7C0F9E162BCE33576B315ECECBB6406837BF51F5

/-- Subtraction modulo m of residues. -/
def sub (m a c : Nat) : Nat := (a + m - c % m) % m

/-- The bits of a number from bit k − 1 down. -/
def bitsDown (v : Nat) : Nat → List Bool
  | 0 => []
  | k + 1 => v.testBit k :: bitsDown v k

/-- Exponentiation modulo m. -/
def powMod (m a e : Nat) : Nat :=
  (bitsDown e 256).foldl (fun r x => let q := r * r % m; if x then q * a % m else q) 1

/-- The inverse modulo a prime. -/
def inv (m a : Nat) : Nat := powMod m a (m - 2)

/-- A point in Jacobian coordinates; Z 0 is the point at infinity. -/
structure Pt where
  x : Nat
  y : Nat
  z : Nat
  deriving DecidableEq, Repr

/-- Twice a point. -/
def dbl (a : Pt) : Pt :=
  if a.z = 0 ∨ a.y = 0 then ⟨1, 1, 0⟩ else
  let y2 := a.y * a.y % p
  let s := 4 * a.x * y2 % p
  let z2 := a.z * a.z % p
  let m := 3 * (sub p a.x z2) * ((a.x + z2) % p) % p
  let x := sub p (m * m % p) (2 * s)
  ⟨x, sub p (m * sub p s x % p) (8 * y2 * y2), 2 * a.y * a.z % p⟩

/-- The sum of two points. -/
def add (a c : Pt) : Pt :=
  if a.z = 0 then c else if c.z = 0 then a else
  let z1 := a.z * a.z % p
  let z2 := c.z * c.z % p
  let u1 := a.x * z2 % p
  let u2 := c.x * z1 % p
  let s1 := a.y * z2 * c.z % p
  let s2 := c.y * z1 * a.z % p
  if u1 = u2 then (if s1 = s2 then dbl a else ⟨1, 1, 0⟩) else
  let h := sub p u2 u1
  let r := sub p s2 s1
  let h2 := h * h % p
  let h3 := h * h2 % p
  let v := u1 * h2 % p
  let x := sub p (sub p (r * r % p) h3) (2 * v)
  ⟨x, sub p (r * sub p v x % p) (s1 * h3), h * a.z * c.z % p⟩

/-- A multiple of a point. -/
def mul (k : Nat) (a : Pt) : Pt := (bitsDown k 256).foldl (fun r x => let q := dbl r; if x then add q a else q) ⟨1, 1, 0⟩

/-- The affine point lies on the curve. -/
def onCurve (x y : Nat) : Bool :=
  decide (x < p) && decide (y < p) && decide (y * y % p = sub p ((x * x * x + b) % p) (3 * x))

/-- The signature r, s of a digest holds under the public key x, y. -/
def verify (x y r s digest : Nat) : Bool :=
  onCurve x y && decide (0 < r) && decide (r < n) && decide (0 < s) && decide (s < n) &&
    let w := inv n s
    let q := add (mul (digest * w % n) ⟨gx, gy, 1⟩) (mul (r * w % n) ⟨x, y, 1⟩)
    decide (q.z ≠ 0) && decide (q.x * powMod p (q.z * q.z % p) (p - 2) % p % n = r)

end P256

/-- The ECDSA signature `sig` (r then s) of a message holds under `pub` (X then Y), both as SEC 1 encodes them. -/
def ecdsaOk (pub sig msg : List Byte) : Bool :=
  P256.verify (ofBe (pub.take 32)) (ofBe (pub.drop 32)) (ofBe (sig.take 32)) (ofBe (sig.drop 32)) (ofBe (sha256 msg))

/-! ### AES-256-GCM -/

/-- Multiplication by x in GF(2⁸) with the AES polynomial. -/
def xtime (a : Nat) : Nat := if a < 128 then 2 * a else (2 * a - 256) ^^^ 0x1B

/-- Multiplication in GF(2⁸). -/
def gmul (a b : Nat) : Nat :=
  ((List.range 8).foldl (fun (r : Nat × Nat) i => (if b.testBit i then r.1 ^^^ r.2 else r.1, xtime r.2)) (0, a)).1

/-- a to the 254th power in GF(2⁸), the inverse of a. -/
def ginv (a : Nat) : Nat :=
  (P256.bitsDown 254 8).foldl (fun r x => let q := gmul r r; if x then gmul q a else q) 1

/-- The S-box. -/
def sbox (a : Nat) : Nat :=
  let i := if a = 0 then 0 else ginv a
  let rot (n : Nat) : Nat := (i * 2 ^ n) % 256 + i / 2 ^ (8 - n)
  i ^^^ rot 1 ^^^ rot 2 ^^^ rot 3 ^^^ rot 4 ^^^ 0x63

/-- The S-box as a list. -/
def sboxes : List Nat := (List.range 256).map sbox

/-- A byte through the S-box. -/
def subByte (b : Byte) : Byte := BitVec.ofNat 8 (sboxes.getD b.toNat 0)

/-- The exclusive or of two byte lists. -/
def xorBytes (a b : List Byte) : List Byte := List.zipWith (· ^^^ ·) a b

/-- The key schedule of AES-256: 60 words, kept newest first as it grows. -/
def aesExpand : Nat → Nat → Nat → List (List Byte) → List (List Byte)
  | 0, _, _, w => w
  | fuel + 1, i, rc, w =>
    let prev := w.headD []
    let t := if i % 8 = 0 then xorBytes ((prev.drop 1 ++ prev.take 1).map subByte) [BitVec.ofNat 8 rc, 0, 0, 0]
      else if i % 8 = 4 then prev.map subByte else prev
    aesExpand fuel (i + 1) (if i % 8 = 0 then xtime rc else rc) (xorBytes (w.getD 7 []) t :: w)

/-- Cut a list into pieces of four. -/
def fours : List Byte → List (List Byte)
  | a :: b :: c :: d :: t => [a, b, c, d] :: fours t
  | _ => []

/-- Cut a list of words into round keys of 16 bytes. -/
def roundKeys : List (List Byte) → List (List Byte)
  | a :: b :: c :: d :: t => (a ++ b ++ c ++ d) :: roundKeys t
  | _ => []

/-- The 15 round keys of a 32-byte key. -/
def aesKeys (key : List Byte) : List (List Byte) := roundKeys (aesExpand 52 8 1 (fours key).reverse).reverse

/-- ShiftRows on the 16 bytes of a state, column by column. -/
def shiftRows (s : List Byte) : List Byte :=
  (List.range 16).map fun i => s.getD ((i + 4 * (i % 4)) % 16) 0

/-- MixColumns on one column. -/
def mixColumn (c : List Byte) : List Byte :=
  let v (i : Nat) : Nat := (c.getD (i % 4) 0).toNat
  (List.range 4).map fun i => BitVec.ofNat 8 (xtime (v i) ^^^ xtime (v (i + 1)) ^^^ v (i + 1) ^^^ v (i + 2) ^^^ v (i + 3))

/-- The rounds after the first key addition. -/
def aesRounds : List (List Byte) → List Byte → List Byte
  | [], s => s
  | [k], s => xorBytes (shiftRows (s.map subByte)) k
  | k :: ks, s => aesRounds ks (xorBytes ((fours (shiftRows (s.map subByte))).flatMap mixColumn) k)

/-- One block under the round keys. -/
def aesBlock (ks : List (List Byte)) (x : List Byte) : List Byte := aesRounds (ks.drop 1) (xorBytes x (ks.headD []))

/-- Multiplication in GF(2¹²⁸) as GCM defines it, on numbers whose most significant bit is the first bit. -/
def ghashMul (x y : Nat) : Nat :=
  ((P256.bitsDown x 128).foldl (fun (r : Nat × Nat) b =>
    (if b then r.1 ^^^ r.2 else r.1, if r.2 % 2 = 1 then (r.2 / 2) ^^^ (0xE1 * 2 ^ 120) else r.2 / 2)) (0, y)).1

/-- Cut a list into blocks of 16 bytes, the last filled with zeros, `fuel` at most. -/
def blocks16 : Nat → List Byte → List (List Byte)
  | 0, _ => []
  | n + 1, bs => if bs.isEmpty then [] else
    let h := bs.take 16
    (h ++ List.replicate (16 - h.length) 0) :: blocks16 n (bs.drop 16)

/-- GHASH of additional data and ciphertext. -/
def ghash (h : Nat) (aad ct : List Byte) : Nat :=
  let bl := blocks16 (aad.length / 16 + 1) aad ++ blocks16 (ct.length / 16 + 1) ct
    ++ [beBytes (8 * aad.length) 8 ++ beBytes (8 * ct.length) 8]
  bl.foldl (fun y b => ghashMul (y ^^^ ofBe b) h) 0

/-- The key stream applied from a counter block on. -/
def ctrMode (ks : List (List Byte)) (iv : List Byte) (ctr : Nat) : List (List Byte) → List Byte
  | [] => []
  | b :: bs => xorBytes (aesBlock ks (iv ++ beBytes ctr 4)) b ++ ctrMode ks iv (ctr + 1) bs

/-- AES-256-GCM decryption with a 12-byte nonce: the plaintext, or none where the tag does not hold. -/
def gcmOpen (key iv aad ct tag : List Byte) : Option (List Byte) :=
  let ks := aesKeys key
  let h := ofBe (aesBlock ks (List.replicate 16 0))
  let t := beBytes ((ghash h aad ct) ^^^ ofBe (aesBlock ks (iv ++ beBytes 1 4))) 16
  if t = tag then some ((ctrMode ks iv 2 (blocks16 (ct.length / 16 + 1) ct)).take ct.length) else none

end Sys2Proof.Machine
end

