-- ==== Sys2Proof/Machine/Frames.lean ====
section
/-! DEFINITION. What a block of a pair sends on the Beacon line: frames and the retain buffer (R375 to R377), preemption
entries (R381), horizons (R382), the items of the housekeeping record (R383), and FAIL (R388). -/

namespace Sys2Proof.Machine

/-! ### Sending (R375, R377) -/

/-- The frame types of R376. -/
abbrev tDELTA : Nat := 0x01
abbrev tREL : Nat := 0x02
abbrev tHZN : Nat := 0x03
abbrev tHK : Nat := 0x04
abbrev tSTATE : Nat := 0x05
abbrev tFAIL : Nat := 0x06
abbrev tKEEP : Nat := 0x07
abbrev tHELLO : Nat := 0x10
abbrev tSTATUS : Nat := 0x11
abbrev tTAKEN : Nat := 0x12

/-- The header of a frame. -/
def BFrame.header (f : BFrame) : DWord :=
  BitVec.ofNat 64 (f.typ + f.first.toNat * 2 ^ 8 + f.last.toNat * 2 ^ 9 + f.seq * 2 ^ 16 + f.ws.length * 2 ^ 32
    + f.cyc * 2 ^ 48)

/-- The bytes of 64-bit words, each least significant byte first (R4). -/
def dwordBytes (ws : List DWord) : List Byte := ws.flatMap fun w => toBytes w.toNat 8

/-- The CRC of a frame, over header and payload. -/
def BFrame.crc (f : BFrame) : Nat := crc32 (dwordBytes (f.header :: f.ws))

/-- The beats of a frame as the line carries them: header, payload and CRC, the low beat first. -/
def BFrame.beats (f : BFrame) : List (BitVec 16) :=
  ((f.header :: f.ws).flatMap fun w => (List.range 4).map fun i => BitVec.ofNat 16 (w.toNat / 2 ^ (16 * i)))
    ++ [BitVec.ofNat 16 f.crc, BitVec.ofNat 16 (f.crc / 2 ^ 16)]

/-- The bytes of a frame. -/
def BFrame.bytes (f : BFrame) : Nat := 2 * f.beats.length

/-- The header of a Chain frame (R394). -/
def CFrame.header (f : CFrame) : DWord :=
  BitVec.ofNat 64 (f.typ + f.orig * 2 ^ 4 + 8 * f.ws.length * 2 ^ 16 + f.rnd * 2 ^ 32)

/-- The beats of a Chain frame: header, payload, and their CRC. -/
def CFrame.beats (f : CFrame) : List Byte :=
  let b := dwordBytes (f.header :: f.ws)
  b ++ toBytes (crc32 b) 4

/-- Drop the oldest frames until at most 128 KiB remain; `tot` is the bytes of the list. -/
def trimRetain : Nat → List BFrame → List BFrame
  | _, [] => []
  | tot, f :: t => if 131072 < tot then trimRetain (tot - f.bytes) t else f :: t

/-- The Beacon port can send: PD10 in RUN, the pair configured, BP_REFCLK present (R44). -/
def State.beaconSends (s : State) : Bool := s.inRun 10 && decide (s.bcn.role ≠ 0) && !bit s.clk.lost 4

/-- Send one frame. -/
def State.sendFrame (s : State) (typ : Nat) (first last : Bool) (ws : List DWord) : State :=
  if !s.beaconSends then s else
  let f : BFrame := ⟨typ, first, last, s.bcn.seq, s.scn.cyc % 65536, ws⟩
  let l := s.bcn.retain ++ [f]
  { s with bcn := { s.bcn with
      seq := (s.bcn.seq + 1) % 65536
      retain := trimRetain (l.foldl (fun n f => n + f.bytes) 0) l
      lastTx := s.clk.us } }

/-- Cut a record's words into payloads of at most 1024 words. -/
def payloads : Nat → List DWord → List (List DWord)
  | 0, ws => [ws]
  | n + 1, ws => if ws.length ≤ 1024 then [ws] else ws.take 1024 :: payloads n (ws.drop 1024)

/-- Send the frames of a record: FIRST on the first if `first`, LAST on the last if `last`. -/
def State.sendFrames (s : State) (typ : Nat) (first last : Bool) : List (List DWord) → State
  | [] => s
  | [ws] => s.sendFrame typ first last ws
  | ws :: t => (s.sendFrame typ first false ws).sendFrames typ false last t

/-- Send a record in one or more frames. -/
def State.sendRecord (s : State) (typ : Nat) (first last : Bool) (ws : List DWord) : State :=
  s.sendFrames typ first last (payloads ws.length ws)

/-- A primary with a synchronised standby: it sends what the standby replays. -/
def State.replicates (s : State) : Bool := decide (s.bcn.role = 1) && s.bcn.sync

/-! ### Preemption entries and horizons (R381, R382) -/

/-- The words of one preemption entry. -/
def State.preWords (s : State) (r : PreRec) : List DWord :=
  let kind := if r.what = 256 + 11 then 1 else if r.what = 256 + 16 then 2 else 0
  let src := if r.what < 128 then r.what else 0
  let cap := decide (32 ≤ r.what) && decide (r.what < 48)
  let w : DWord := BitVec.ofNat 64 (r.count % 2 ^ 32 + r.ctx * 2 ^ 32 + kind * 2 ^ 38 + src * 2 ^ 40
    + (decide (r.what = 128)).toNat * 2 ^ 47 + cap.toNat * 2 ^ 48)
  let m := r.what - 32
  if cap then
    [w, BitVec.ofNat 64 ((s.reg (Reg.BEA_CAPP + 0x20 * m)).toNat + (s.reg (Reg.BEA_CAPT + 0x20 * m)).toNat * 2 ^ 32),
      BitVec.ofNat 64 (s.reg (Reg.BEA_CAPF + 0x20 * m)).toNat]
  else [w]

/-- The boundary at which the newest entries were applied has retired: they leave in one REL frame. -/
def State.sendRel (s : State) : State :=
  let new := s.car.pre.drop s.bcn.relSent
  if !s.replicates || new.isEmpty then s else
  let s := s.sendRecord tREL true true (new.flatMap s.preWords)
  { s with bcn := { s.bcn with relSent := s.car.pre.length, lastHzn := s.car.retired } }

/-- Send a horizon word with a MARK. -/
def State.sendHzn (s : State) (mark : Nat) : State :=
  if !s.replicates then s else
  let s := s.sendRel
  let s := s.sendFrame tHZN true true [BitVec.ofNat 64 (s.car.retired % 2 ^ 32 + mark * 2 ^ 32)]
  { s with bcn := { s.bcn with lastHzn := s.car.retired } }

/-! ### Items of the housekeeping record (R383) -/

/-- An item as it stands in the record. -/
def HkItem.words (x : HkItem) : List DWord := BitVec.ofNat 64 (x.item + x.ws.length * 65536) :: x.ws

/-- The items that a list of words spells. -/
def itemsOf : Nat → List DWord → List HkItem
  | 0, _ => []
  | _, [] => []
  | n + 1, w :: t => ⟨fld w 7 0, t.take (fld w 31 16)⟩ :: itemsOf n (t.drop (fld w 31 16))

/-- Pairs of 32-bit words as 64-bit words, the low word first. -/
def packWords : List Word → List DWord
  | [] => []
  | [a] => [BitVec.ofNat 64 a.toNat]
  | a :: b :: t => BitVec.ofNat 64 (a.toNat + b.toNat * 2 ^ 32) :: packWords t

/-- The 32-bit words of a list of 64-bit words. -/
def unpackWords (ws : List DWord) : List Word :=
  ws.flatMap fun w => [BitVec.ofNat 32 w.toNat, BitVec.ofNat 32 (w.toNat / 2 ^ 32)]

/-- Note an item for the housekeeping record of the cycle. -/
def State.tell (s : State) (item : Nat) (ws : List DWord) : State :=
  if !s.replicates then s else { s with bcn := { s.bcn with items := s.bcn.items ++ [⟨item, ws⟩] } }

/-- Note an applied command: opcode, housekeeping step, and the parameter words as applied. -/
def State.tellCmd (s : State) (op step : Nat) (ps : List Word) : State :=
  s.tell 5 (BitVec.ofNat 64 (op + step * 256 + ps.length * 65536) :: packWords ps)

/-! ### HELLO, STATUS, KEEP (R376) -/

/-- The first 8 bytes of a digest. -/
def digest8 (d : List Byte) : DWord := BitVec.ofNat 64 (ofBytes (d.take 8))

/-- The words of HELLO. -/
def State.helloWords (s : State) : List DWord :=
  let a := !s.olc.digA.isEmpty && decide (s.str.gen ≠ 1) && decide (s.str.gen ≠ 3)
  let b := !s.olc.digB.isEmpty && decide (s.str.gen ≠ 2) && decide (s.str.gen ≠ 3)
  let j := !s.olc.digJ.isEmpty && decide (s.str.gen = 0)
  [ BitVec.ofNat 64 (s.bcn.role + s.f Reg.PWR_STRAP 3 3 * 8 + s.str.gen * 16 + s.str.startCount * 64 + a.toNat * 2 ^ 22
      + b.toNat * 2 ^ 23 + j.toNat * 2 ^ 24),
    digest8 s.str.genDigest,
    BitVec.ofNat 64 ((s.reg Reg.MCS_DIGEST).toNat + (s.reg (Reg.MCS_DIGEST + 4)).toNat * 2 ^ 32),
    digest8 (sha256 ((rangeFrom 0x708000 0x34000).map s.byte)),
    if a then digest8 s.olc.digA else if j then digest8 s.olc.digJ else 0,
    if b then digest8 s.olc.digB else if j then digest8 s.olc.digJ else 0 ]

/-- Send HELLO. -/
def State.sendHello (s : State) : State := s.sendFrame tHELLO true true s.helloWords

/-- Send KEEP. -/
def State.sendKeep (s : State) : State :=
  s.sendFrame tKEEP true true [BitVec.ofNat 64 (s.scn.mode.code + s.bcn.role * 4)]

/-- Send STATUS with a DIVCAUSE: ACKSEQ, NAK, and the last output signature with the CYC of its cycle. -/
def State.sendStatus (s : State) (div : Nat) : State :=
  let ack := ((s.bcn.expect.getD 0) + 65535) % 65536
  s.sendFrame tSTATUS true true
    [ BitVec.ofNat 64 (ack + s.bcn.nak.toNat * 2 ^ 16 + s.bcn.role * 2 ^ 17 + div * 2 ^ 20),
      BitVec.ofNat 64 s.bcn.sigCyc, s.bcn.sig ]

/-! ### FAIL (R388) -/

/-- The primary sends FAIL with a cause, lets go of the field links and the Chain, and takes role 2; one whose Beacon port cannot send
sends none. -/
def State.sendFail (s : State) (cause : Nat) : State :=
  if s.bcn.role ≠ 1 ∨ !s.beaconSends then s else
  let s := s.sendFrame tFAIL true true [BitVec.ofNat 64 (cause % 256)]
  { s with bcn := { s.bcn with role := 2, sync := false, handoff := false, resync := .none, dirty := [] } }

end Sys2Proof.Machine
end

