-- ==== Sys2Proof/Machine/Field.lean ====
section
/-! DEFINITION. What other units need of the image bank's layout (R267), of the stations and their status words (R306,
R311, R315), of the phased points (R330), and of a station's way to its safe state (R336, R338). -/

namespace Sys2Proof.Machine

/-! ### The image bank (R267) -/

abbrev ibBase : Nat := 0x680000
/-- The address of image word n: the I, Q, M and S areas stand one behind the other. -/
def imgAddr (n : Nat) : Nat := ibBase + 8 * n
def shInAddr (n : Nat) : Nat := ibBase + 0x22000 + 8 * n
def shOutAddr (n : Nat) : Nat := ibBase + 0x2A000 + 8 * n
def shStatAddr (w : Nat) : Nat := ibBase + 0x32000 + 8 * w
def stampAddr (n : Nat) : Nat := ibBase + 0x34000 + n
def forceAddr (e : Nat) : Nat := ibBase + 0x38000 + 16 * e
def findexAddr (e : Nat) : Nat := ibBase + 0x3C000 + 2 * e
abbrev chainArea : Nat := ibBase + 0x3F000

/-- Image word n. -/
def State.img (s : State) (n : Nat) : DWord := s.w64 (imgAddr n)

/-- Word w of the shadow status, and Q word w of the shadow output. -/
def State.shStat (s : State) (w : Nat) : DWord := s.w64 (shStatAddr w)
def State.shOut (s : State) (w : Nat) : DWord := s.w64 (shOutAddr w)
def State.shIn (s : State) (w : Nat) : DWord := s.w64 (shInAddr w)

/-- Write a word of the shadow status; a bank out of RUN takes nothing (R320). -/
def State.putStat (s : State) (w : Nat) (v : DWord) : State :=
  if s.inRun 7 then s.put64 (shStatAddr w) v else s

/-- The engine holds the image bank: an access of the core to it stalls (R19, R271, R274). -/
def State.imageHeld (s : State) : Bool := decide (s.scn.phase = .input) || decide (s.scn.phase = .output)

/-! ### Stations -/

/-- Field-link station by 32 × link + address, if it is configured. -/
def State.stn (s : State) (k : Nat) : Option Stn := Map.get (fun _ => none) s.flk.stns k
def State.setStn (s : State) (k : Nat) (x : Option Stn) : State :=
  { s with flk := { s.flk with stns := Map.set (fun _ => none) s.flk.stns k x } }

/-- Host-fed station n, if it is configured. -/
def State.hf (s : State) (n : Nat) : Option HfStn := Map.get (fun _ => none) s.flk.hfs n
def State.setHf (s : State) (n : Nat) (x : Option HfStn) : State :=
  { s with flk := { s.flk with hfs := Map.set (fun _ => none) s.flk.hfs n x } }

/-- The controller of link n. -/
def State.link (s : State) (n : Nat) : Link := Map.get (fun _ => {}) s.flk.links n
def State.setLink (s : State) (n : Nat) (x : Link) : State :=
  { s with flk := { s.flk with links := Map.set (fun _ => {}) s.flk.links n x } }

/-- The configured field-link stations and host-fed stations, ascending. -/
def State.stations (s : State) : List (Nat × Stn) := s.flk.stns.filterMap fun e => e.2.map fun x => (e.1, x)
def State.hostFed (s : State) : List (Nat × HfStn) := s.flk.hfs.filterMap fun e => e.2.map fun x => (e.1, x)

/-- FLK_LCFG of link n: enabled. -/
def lcfg (n : Nat) : Nat := Reg.FLK_LCFG + 0x20 * n
def State.linkEnabled (s : State) (n : Nat) : Bool := bit (s.reg (lcfg n)) 0

/-- The station is up or down-pending. -/
def Stn.isUp (x : Stn) : Bool := decide (x.st = .up) || decide (x.st = .pending)

/-- The S word of a field-link station (R311): it shows UP from the burst of its first good DATA response on (R308), and
DOWN until then; a failed station shows DOWN as well. -/
def Stn.word (x : Stn) : DWord :=
  let f (lo : Nat) : Nat := fld x.status (lo + 15) lo
  let any (lo : Nat) : Nat := (decide (f lo ≠ 0)).toNat
  let up := x.isUp && x.live
  BitVec.ofNat 64 (1 + up.toNat * 2 + (!up).toNat * 4 + x.cfgerr.toNat * 8 + x.safe.toNat * 16
    + any 32 * 0x20 + any 48 * 0x40 + any 0 * 0x80 + any 16 * 0x100 + (decide (x.st = .failed)).toNat * 0x200
    + f 0 * 2 ^ 16 + f 16 * 2 ^ 32 + (f 32 ||| f 48) * 2 ^ 48)

/-- The S word of a host-fed station (R315). -/
def HfStn.word (x : HfStn) : DWord :=
  let up := decide (x.st = .up)
  BitVec.ofNat 64 (1 + up.toNat * 2 + (!up).toNat * 4 + (!up).toNat * 8 + x.never.toNat * 0x10
    + (decide (x.st = .failed)).toNat * 0x20 + (if x.never then 0 else min x.age 0xFFFF) * 2 ^ 16 + x.hseq * 2 ^ 32)

/-- A word whose bit j says whether a test holds of the j-th of n S words from w on. -/
def State.statMask (s : State) (w n : Nat) (p : DWord → Bool) : Nat :=
  (List.range n).foldl (fun m j => m + (p (s.shStat (w + j))).toNat * 2 ^ j) 0

/-- The summary words of link L, and word 208 (R311). -/
def State.linkSummary (s : State) (L : Nat) : State :=
  let w := 256 + 32 * L
  let s := s.putStat (192 + L) (BitVec.ofNat 64 (s.statMask w 32 (fun x => bit x 1)
    + 2 ^ 32 * s.statMask w 32 fun x => bit x 3 || decide (fld x 9 5 ≠ 0)))
  let s := s.putStat (200 + L) (BitVec.ofNat 64 (s.statMask w 32 (fun x => bit x 0)
    + 2 ^ 32 * s.statMask w 32 fun x => bit x 4))
  let en := (List.range 8).foldl (fun m n => m + (s.linkEnabled n).toNat * 2 ^ n) 0
  let dead := (List.range 8).foldl (fun m n =>
    m + (decide (fld (s.shStat (200 + n)) 31 0 ≠ 0) && decide (fld (s.shStat (192 + n)) 31 0 = 0)).toNat * 2 ^ n) 0
  s.putStat 208 (BitVec.ofNat 64 (en + 256 * dead))

/-- The S word of field-link station k in the shadow status, with the words that summarise it; 0 where the station is
not configured (R303, R311). -/
def State.writeStn (s : State) (k : Nat) : State :=
  (s.putStat (256 + k) (match s.stn k with | some x => x.word | none => 0)).linkSummary (k / 32)

/-- The S word of host-fed station n, with its summary words (R311, R315). -/
def State.writeHf (s : State) (n : Nat) : State :=
  let s := s.putStat (512 + n) (match s.hf n with | some x => x.word | none => 0)
  let w := 512 + n / 64 * 64
  let s := s.putStat (216 + n / 64) (BitVec.ofNat 64 (s.statMask w 64 fun x => bit x 1))
  s.putStat (224 + n / 64) (BitVec.ofNat 64 (s.statMask w 64 fun x => bit x 2))

/-- Write the S word of a station, field-link below 256 and host-fed from 256 on: at once, or as soon as the engine
releases the bank (R319). -/
def State.writeStation (s : State) (j : Nat) : State :=
  if s.imageHeld then { s with flk := { s.flk with due := s.flk.due ++ [j] } }
  else if j < 256 then s.writeStn j else s.writeHf (j - 256)

/-- The S words that waited are written. -/
def State.writeDue (s : State) : State :=
  let due := s.flk.due
  due.foldl (fun s j => if j < 256 then s.writeStn j else s.writeHf (j - 256))
    { s with flk := { s.flk with due := [] } }

/-! ### Phased points (R330) -/

/-- The pin that a Q point is: its station, unit and pin. -/
structure Pin where
  key : Nat
  unit : Nat
  pin : Nat
  deriving DecidableEq, Repr

/-- The pin of a configured field-link station that Q point q names. -/
def State.pinOf (s : State) (q : Nat) : Option Pin :=
  (s.stations.find? fun e => decide (e.2.qbase ≤ q / 64) && decide (q / 64 < e.2.qbase + e.2.w)).map fun e =>
    ⟨e.1, q / 64 - e.2.qbase, q % 64⟩

/-- A bit of a unit's configuration word. -/
def pinBit (l : List DWord) (p : Pin) : Bool := bit (l.getD p.unit 0) p.pin

/-- The Q point is an output pin (R301). -/
def State.outputPin (s : State) (q : Nat) : Option Pin :=
  match s.pinOf q with
  | none => none
  | some p => match s.stn p.key with
    | none => none
    | some x => if pinBit x.dir p then some p else none

/-- The SAFEV value of a pin. -/
def State.safeOf (s : State) (p : Pin) : Bool :=
  match s.stn p.key with
  | none => false
  | some x => pinBit x.safev p

/-- A binding in use: its number, its Q point, its channel, the output pin that the point is, and the link of the station that
has the point. -/
structure Bnd where
  k : Nat
  point : Nat
  chan : Nat
  pin : Option Pin
  link : Option Nat
  deriving DecidableEq, Repr

/-- The bindings in use, ascending. -/
def State.bindings (s : State) : List Bnd :=
  (List.range 256).filterMap fun k =>
    let r := s.reg (Reg.BEA_BIND + 4 * k)
    if bit r 23 then some ⟨k, fld r 17 0, fld r 21 18, s.outputPin (fld r 17 0), (s.pinOf (fld r 17 0)).map fun p => p.key / 32⟩
    else none

/-- The binding is effective among the lower ones (R330). -/
def Bnd.effective (b : Bnd) (all : List Bnd) : Bool :=
  match b.pin with
  | none => false
  | some _ =>
    let lower := all.filter fun x => decide (x.k < b.k)
    !lower.any (fun x => x.point == b.point)
      && decide ((lower.filter fun x => x.chan == b.chan && x.link == b.link).length < 60)

/-- The phased points. -/
def State.phased (s : State) : List Bnd :=
  let all := s.bindings
  all.filter fun b => b.effective all

/-- Since when each binding's ready value has differed from its strobed value (R335). -/
def State.resince (s : State) : State :=
  s.phased.foldl (fun s b =>
    let d := bit s.bea.isReady b.k && (bit s.bea.ready b.k != bit s.bea.strobed b.k)
    let old := Map.get (fun _ => none) s.bea.since b.k
    let new := if d then some (old.getD s.clk.us) else none
    { s with bea := { s.bea with since := Map.set (fun _ => none) s.bea.since b.k new } }) s

/-- Set the strobed bit of binding k. -/
def State.setStrobed (s : State) (k : Nat) (v : Bool) : State :=
  { s with bea := { s.bea with strobed := setBit s.bea.strobed k v } }

/-! ### The way to the safe state (R336, R338) -/

/-- A time joins an ascending list, unless it stands there. -/
def joinTime (t : Nat) (l : List Nat) : List Nat :=
  if t ∈ l then l else l.filter (fun x => decide (x < t)) ++ t :: l.filter (fun x => decide (t < x))

/-- Station k is marked down, or its link begins to send SAFE 1: the strobed bits of its phased points take SAFEV, and
its governor members count as de-energised once its TIMEOUT has passed since each such mark. -/
def State.goSafe (s : State) (k : Nat) : State :=
  match s.stn k with
  | none => s
  | some x =>
    let s := s.phased.foldl (fun s b => match b.pin with
      | some p => if p.key = k then s.setStrobed b.k (s.safeOf p) else s
      | none => s) s
    (s.setStn k (some { x with safeAt := joinTime (s.clk.us + 1000 * x.timeout) x.safeAt })).resince

/-- Every station's link begins to send SAFE 1 requests (R310). -/
def State.allSafe (s : State) : State := s.stations.foldl (fun s e => s.goSafe e.1) s

/-- What the field holds for a phased point that was another binding's, an ordinary one or none so far: the value last sent to a station
that is up, and SAFEV at one that is not (R330, R336). -/
def State.fieldHolds (s : State) (before : List Bnd) (b : Bnd) : Bool :=
  match b.pin with
  | none => false
  | some p =>
    if (s.stn p.key).any Stn.isUp then
      match before.find? fun o => o.point == b.point with
      | some o => bit s.bea.strobed o.k
      | none => bit (s.shOut (b.point / 64)) (b.point % 64)
    else s.safeOf p

/-- The Beat unit takes up a phased point anew: its strobed bit and its staging are what the field holds, and nothing is ready. -/
def Bea.takePoint (x : Bea) (k : Nat) (v : Bool) : Bea :=
  { x with strobed := setBit x.strobed k v, staging := setBit x.staging k v, ready := setBit x.ready k v
           isReady := setBit x.isReady k false }

/-- The configuration has changed from one with these phased points: those that are new start with what the field holds (R330, R346). -/
def State.rebind (s : State) (before : List Bnd) : State :=
  let new := s.phased.filter fun b => !before.any fun o => o.k == b.k && o.point == b.point
  State.resince { s with bea := new.foldl (fun x b => x.takePoint b.k (s.fieldHolds before b)) s.bea }

/-- A station as it starts anew: down, unidentified, with what its configuration says and nothing else; its substitutes
are written without a dropout (R303, R320). A failed station stays failed (R319). -/
def Stn.fresh (x : Stn) : Stn :=
  { w := x.w, ibase := x.ibase, qbase := x.qbase, pbase := x.pbase, timeout := x.timeout, dir := x.dir
    wben := x.wben, safev := x.safev, subst := x.subst, safeAt := x.safeAt
    st := if x.st = .failed then .failed else .down, subDue := some false }

/-- The error task of a host-fed station is marked for release (R314); context 0 in its configuration means none. -/
def State.markTask (s : State) (n : Nat) (x : HfStn) : State :=
  if x.errctx = 0 then s
  else { s with scn := { s.scn with errTasks := Map.set (fun _ => 0) s.scn.errTasks n x.errctx } }

/-- Station k is marked down (R307): it is asked for IDENT from now on, and its substitutes are due. -/
def State.markDown (s : State) (k : Nat) (st : StnSt) : State :=
  match s.stn k with
  | none => s
  | some x =>
    let s := s.setStn k (some { x with
      st := st, ident := false, unit := 0, live := false, count := 0, subDue := some true, retMark := false })
    (s.count (Reg.FLK_LDROP + 0x20 * (k / 32))).goSafe k

/-- The dropout of station k fires at the next input transfer, before its substitutes are written (R312, R319). -/
def State.dropShown (s : State) (k : Nat) : State :=
  match s.stn k with
  | none => s
  | some x => s.setStn k (some { x with subDue := some false, dropMark := true })

/-! ### Time -/

/-- A mains source runs: enabled in mains mode, its domain in RUN and BEAT_CLK present (R44, R322). -/
def State.mainsRuns (s : State) (n : Nat) : Bool :=
  let c := s.reg (Reg.BEA_SCFG + 0x10 * n)
  bit c 0 && !bit c 1 && s.inRun 9 && !bit s.clk.lost 3

/-- Phase source n. -/
def State.src (s : State) (n : Nat) : Src := Map.get (fun _ => {}) s.bea.srcs n
def State.setSrc (s : State) (n : Nat) (x : Src) : State :=
  { s with bea := { s.bea with srcs := Map.set (fun _ => {}) s.bea.srcs n x } }

/-- A source that is disabled, or whose unit is reset: it keeps nothing but the levels of its pins. DESIGN CHOICE: until a pin's first
transition is known its level is taken as 0. -/
def Src.atRest (x : Src) : Src := { a := x.a, b := x.b }

/-- The registers of a source and of a channel. -/
def scfg (n : Nat) : Nat := Reg.BEA_SCFG + 0x10 * n
def ccfg (m : Nat) : Nat := Reg.BEA_CCFG + 0x20 * m

/-- The source is enabled, in encoder mode or in mains mode. -/
def State.srcOn (s : State) (n : Nat) : Bool := bit (s.reg (scfg n)) 0
def State.isEncoder (s : State) (n : Nat) : Bool := bit (s.reg (scfg n)) 1

/-- The phase of a source (R322, R323, R325). -/
def State.phase (s : State) (n : Nat) : Nat :=
  if !s.srcOn n then 0
  else if s.isEncoder n then (s.src n).cnt * 2 ^ 32 / s.f (Reg.BEA_CPR + 0x10 * n) 23 0
  else (s.src n).ph / 256

/-- LOCK of a source (R322, R324, R325). -/
def State.locked (s : State) (n : Nat) : Bool :=
  s.srcOn n && (if s.isEncoder n && !bit (s.reg (scfg n)) 3 then true else (s.src n).lock)

/-- BEA_FREQ.INC of a source (R347). -/
def State.freq (s : State) (n : Nat) : Nat := if s.isEncoder n then (s.src n).interval else (s.src n).inc

/-- A mains source's phase advances by n BEAT cycles (R323). -/
def Src.advance (x : Src) (n : Nat) : Src :=
  let p := x.ph + n * x.inc
  { x with ph := p % 2 ^ 40, wraps := x.wraps + p / 2 ^ 40, prev := p % 2 ^ 40 / 256 }

/-- The phases of the mains sources advance by n BEAT cycles. -/
def State.beatPhases (s : State) (n : Nat) : State :=
  (List.range 4).foldl (fun s i => if s.mainsRuns i then s.setSrc i ((s.src i).advance n) else s) s

/-- n BEAT cycles pass, and µs time with them. -/
def State.beatAdvance (s : State) (n : Nat) : State :=
  let s := s.beatPhases n
  let f := s.bea.frac + n
  { s with
    bea := { s.bea with frac := f % 100 }
    clk := { s.clk with us := s.clk.us + f / 100 }
    flt := { s.flt with ft := s.flt.ft + f / 100 } }

/-- µs time moves on to a moment, with the classifier's own time and the phases (R45, R457); a moment already past
changes nothing. -/
def State.carry (s : State) (t : Nat) : State :=
  if s.clk.us < t then
    let s' := s.beatPhases (100 * (t - s.clk.us))
    { s' with clk := { s.clk with us := t }, flt := { s.flt with ft := s.flt.ft + (t - s.clk.us) } }
  else s

end Sys2Proof.Machine
end

