-- ==== Sys2Proof/Machine/Trace.lean ====
section
/-! DEFINITION. Event sources (R192, R193), the level of debug access (R429), and the trace port's packets (R442 to
R444). -/

namespace Sys2Proof.Machine

/-! ### Event sources (R192, R193) -/

/-- Releases and firings are taken in RUN and HOLD only (R192). -/
def State.takesEvents (s : State) : Bool := decide (s.scn.mode = .run) || decide (s.scn.mode = .hold)

/-- An event source fires: its latch is set, or the firing merges into a latch that is set. A block that follows a
primary takes its releases from the preemption list, but for SIGNAL's sources 120 to 127 (R194). -/
def State.fire (s : State) (src : Nat) : State :=
  if !s.takesEvents || (s.follows && decide (src < 120)) then s
  else if bit s.car.latches src then s.count Reg.CAR_SRCOVR
  else { s with car := { s.car with latches := setBit s.car.latches src true } }

/-! ### The trace port (R442 to R444) -/

/-- The granted access level, while PD11 is in RUN (R429, R431). -/
def State.dbgLevel (s : State) : Nat :=
  match s.dbg.grant with
  | some g => if s.inRun 11 then g.level else 0
  | none => 0

/-- The trace port is enabled. -/
def State.traceOn (s : State) : Bool := decide (s.f Reg.DBG_TRCTRL 0 0 = 1) && decide (1 ≤ s.dbgLevel)

/-- The bytes of a packet: TYPE and LEN, TS, payload. -/
def packet (typ ts : Nat) (pay : List Byte) : List Byte :=
  BitVec.ofNat 8 (typ + 16 * pay.length) :: (toBytes ts 2 ++ pay)

/-- The nibbles of bytes as the port sends them: of each the low one first (R443). -/
def nibbles (bs : List Byte) : List Nat := bs.flatMap fun b => [b.toNat % 16, b.toNat / 16]

/-- What TRACE_D holds with the port enabled: the nibble that is sent next, 0xF between packets (R442). -/
def State.traceNibble (s : State) : Nat := (nibbles s.dbg.fifo).headD 0xF

/-- A TS: the TRACE_CLK cycles since the previous packet, a free value as the model keeps no cycle counts. -/
def State.traceTs (s : State) : Nat := (Config.freeWord s.free).toNat % 65536

/-- The payload of a SYNC packet. -/
def State.syncBytes (s : State) : List Byte := toBytes s.scn.cyc 4 ++ toBytes s.clk.us 4

/-- The OVERFLOW packet that goes before the next packet that fits once some have been lost, and the SYNC between the two where it is the
1024th (R443, R444). -/
def State.overflowed (s : State) : List Byte :=
  if s.dbg.lostPkts = 0 then [] else
  packet 5 s.tickFree.traceTs (toBytes s.dbg.lostPkts 2) ++ if s.dbg.packets = 1023 then packet 0 0 s.syncBytes else []

/-- The packets formed since the last SYNC once the next one has entered the FIFO. -/
def Dbg.packetsNext (d : Dbg) : Nat :=
  if d.lostPkts = 0 then d.packets + 1 else if d.packets = 1023 then 1 else d.packets + 2

/-- A packet enters the FIFO, behind an OVERFLOW packet if packets have been lost; one that does not fit whole is lost. -/
def State.pushPacket (s : State) (typ ts : Nat) (pay : List Byte) : State :=
  let new := s.overflowed ++ packet typ ts pay
  if s.dbg.fifo.length + new.length ≤ 256 then
    { s.tickFree.tickFree with dbg := { s.dbg with fifo := s.dbg.fifo ++ new, packets := s.dbg.packetsNext, lostPkts := 0 } }
  else
    let s := { s with dbg := { s.dbg with lostPkts := min (s.dbg.lostPkts + 1) 0xFFFF } }
    (s.count Reg.DBG_TRLOST).fire 119

/-- The SYNC packet. -/
def State.traceSync (s : State) : State :=
  let s := s.pushPacket 0 0 s.syncBytes
  { s with dbg := { s.dbg with packets := 0 } }

/-- Emit a packet; after 1024 packets a SYNC follows. -/
def State.emit (s : State) (typ : Nat) (pay : List Byte) : State :=
  if !s.traceOn then s else
  let s := s.pushPacket typ s.traceTs pay
  if 1024 ≤ s.dbg.packets then s.traceSync else s

/-- A context in a SWITCH or HALT packet: its number, [6] for Lantern, [7] for none. -/
def ctxByte : Option Nat → Byte
  | some n => BitVec.ofNat 8 n
  | none => 0x80
abbrev lanternByte : Byte := 0x40

/-- The PHASE packet, while DBG_TRCTRL.PHS is 1. -/
def State.tracePhase (s : State) : State :=
  if s.f Reg.DBG_TRCTRL 2 2 = 1 then
    s.emit 4 [BitVec.ofNat 8 s.scn.phase.code, BitVec.ofNat 8 s.scn.mode.code]
  else s

/-- The SWITCH packet, while DBG_TRCTRL.SWT is 1: incoming and outgoing context, and the incoming PC. -/
def State.traceSwitch (s : State) (inc out : Byte) (pc : Nat) : State :=
  if s.f Reg.DBG_TRCTRL 1 1 = 1 then s.emit 3 (inc :: out :: toBytes pc 3) else s

/-- The cycle's phase changes. -/
def State.setPhase (s : State) (p : Phase) : State :=
  let s := { s with scn := { s.scn with phase := p } }
  s.tracePhase

end Sys2Proof.Machine
end

