-- ==== Sys2Proof/Machine/Contexts.lean ====
section
/-! DEFINITION. A context by itself: the fields of its status word (R94), its descriptor copies (R100), the depths of its stacks
(R90, R92), and where a loaded value on its way lands (R140). -/

namespace Sys2Proof.Machine

/-! ### The status word of a context (R94) -/

abbrev swC : Nat := 0
abbrev swZ : Nat := 1
abbrev swN : Nat := 2
abbrev swV : Nat := 3
abbrev swS : Nat := 4
abbrev swG : Nat := 5
abbrev swGM : Nat := 8
abbrev swPRV : Nat := 9
abbrev swFPA : Nat := 10
abbrev swDET : Nat := 11

/-- SW.LKC, the locked instructions that remain (R94, R96). -/
def Ctx.lkc (c : Ctx) : Nat := fld c.sw 14 12

/-- Set SW.LKC. -/
def Ctx.setLkc (c : Ctx) (n : Nat) : Ctx := { c with sw := setFld c.sw 14 12 n }

/-- The descriptor copy of a selector; index 0 and an unloaded selector are null (R100). -/
def Ctx.seg (c : Ctx) (k : Nat) : Word × Word := Map.get (fun _ => (0, 0)) c.segs k

/-- Replace the descriptor copy of a selector. -/
def Ctx.setSeg (c : Ctx) (k : Nat) (d : Word × Word) : Ctx := { c with segs := Map.set (fun _ => (0, 0)) c.segs k d }

/-- The fields of a descriptor (R100). -/
def dBase (d : Word × Word) : Nat := fld d.1 22 0
def dLimit (d : Word × Word) : Nat := fld d.2 21 0
def dR (d : Word × Word) : Bool := bit d.1 23
def dW (d : Word × Word) : Bool := bit d.1 24
def dX (d : Word × Word) : Bool := bit d.1 25
def dNS (d : Word × Word) : Bool := bit d.1 26
def dPRV (d : Word × Word) : Bool := bit d.1 27
def dIMG (d : Word × Word) : Bool := bit d.1 28
def dVALID (d : Word × Word) : Bool := bit d.1 29

/-! ### The stacks, and a loaded value on its way (R90, R92, R140) -/

/-- Put a value into the operand-cache entry of an absolute stack slot, if the slot is cached (R140). -/
def Ctx.landAt (c : Ctx) (depth pos : Nat) (v : Word) : Ctx :=
  if pos < depth ∧ depth - 1 - pos < c.oc.length then { c with oc := c.oc.set (depth - 1 - pos) v } else c

/-- The words in memory of a stack whose pointer and segment are given (R90, R92). -/
def memWords (sp : Word) (d : Word × Word) : Nat := (dLimit d + 1 - sp.toNat) / 4

/-- The logical depths of the operand stack and of the return stack (R90, R92). -/
def Ctx.depth (c : Ctx) : Nat := c.oc.length + memWords c.osp (c.seg 2)
def Ctx.rdepth (c : Ctx) : Nat := c.rc.length + memWords c.rsp (c.seg 3)

/-- A loaded value still on its way lands in its result slot (R140). -/
def Ctx.land (c : Ctx) : Ctx :=
  match c.load with
  | some (pos, v) => { c.landAt c.depth pos v with load := none }
  | none => c

/-- The running context is interrupted between two instructions, or a switch, an entry or a halt falls there: a loaded value on its
way lands (R140). -/
def State.landRunning (s : State) : State :=
  match s.car.running with
  | some n => s.updCtx n Ctx.land
  | none => s

end Sys2Proof.Machine
end

