-- ==== Sys2Proof/Machine/Events.lean ====
section
/-! DEFINITION. What a happening anywhere in the block sets off: the force table, the entry to STOP, the fault
classifier with its escalations, and the firing of event sources. -/

namespace Sys2Proof.Machine

/-! ### The force table (R284) -/

/-- A force entry: image word, force enable, force value. -/
structure ForceEnt where
  word : Nat
  fe : DWord
  fv : DWord
  deriving DecidableEq, Repr

/-- The valid entries from index e on; the valid halfwords stand first (R284). -/
def State.forcesFrom (s : State) (e : Nat) : Nat → List ForceEnt
  | 0 => []
  | fuel + 1 =>
    let ix := s.mread (findexAddr e) 2
    if ix / 0x8000 % 2 = 1 then
      ⟨ix % 0x4000, s.w64 (forceAddr e), s.w64 (forceAddr e + 8)⟩ :: s.forcesFrom (e + 1) fuel
    else []

/-- The force table. -/
def State.forces (s : State) : List ForceEnt := s.forcesFrom 0 1024

/-- A word of the force table takes a new value, with new check bits (R256); one that holds it already is not written. -/
def State.putForceWord (s : State) (a : Nat) (v : DWord) : State := if s.w64 a = v then s else s.put64 a v

/-- Entry e of the table takes a halfword and its two words; none for a word that the engine could not read to move it, whose place keeps
its contents (R258). So does the index halfword whose 64-bit word cannot be read (R256). -/
def State.putForce (s : State) (e half : Nat) (fe fv : Option DWord) : State :=
  let a := findexAddr e
  let s := if s.mread a 2 = half ∨ s.eccAt a = .double then s else (s.setEcc a .none).mwrite a 2 half
  let s := match fe with
    | some v => s.putForceWord (forceAddr e) v
    | none => s
  match fv with
  | some v => s.putForceWord (forceAddr e + 8) v
  | none => s

/-- The word that a table's new entry puts at offset o: none where it moves from an entry that cannot be read. -/
def State.forceSource (s : State) (old : List ForceEnt) (f : ForceEnt) (o : Nat) (v : DWord) : Option DWord :=
  match old.findIdx? fun g => g.word == f.word with
  | some i => if s.eccAt (forceAddr i + o) = .double then none else some v
  | none => some v

/-- Replace the force table; FORCED follows it (R284, R286). DESIGN CHOICE: the words of an entry no longer in use read 0. -/
def State.setForces (s : State) (t : List ForceEnt) : State :=
  let old := s.forces
  let s := (List.range (max old.length t.length)).foldl (fun (q : State) e =>
    match t[e]? with
    | some f => q.putForce e (0x8000 + f.word) (s.forceSource old f 0 f.fe) (s.forceSource old f 8 f.fv)
    | none => q.putForce e 0 (some 0) (some 0)) s
  { s with scn := { s.scn with forced := !s.forces.isEmpty } }

/-- Force one point of a table, keeping the order of image word numbers (R284). -/
def forceSet (n b : Nat) (v : Bool) : List ForceEnt → List ForceEnt
  | [] => [⟨n, setBit 0 b true, setBit 0 b v⟩]
  | f :: t =>
    if n < f.word then ⟨n, setBit 0 b true, setBit 0 b v⟩ :: f :: t
    else if n = f.word then ⟨n, setBit f.fe b true, setBit f.fv b v⟩ :: t
    else f :: forceSet n b v t

/-- Release one point of a table; an entry that forces nothing is removed. -/
def forceClear (n b : Nat) : List ForceEnt → List ForceEnt
  | [] => []
  | f :: t =>
    if n = f.word then
      let fe := setBit f.fe b false
      if fe = 0 then t else ⟨n, fe, setBit f.fv b false⟩ :: t
    else f :: forceClear n b t

/-- Apply one force change to a table. -/
def ForceOp.apply (t : List ForceEnt) : ForceOp → List ForceEnt
  | .set p v => forceSet (p / 64) (p % 64) v t
  | .clear p => forceClear (p / 64) (p % 64) t
  | .clearAll => []

/-- The table as it stands once every staged change has been applied, in acceptance order (R285). -/
def State.forcesStaged (s : State) : List ForceEnt := s.scn.staged.foldl ForceOp.apply s.forces

/-- Apply the staged force changes to the table. -/
def State.applyForces (s : State) : State :=
  if s.scn.staged.isEmpty then s else
  let s := s.setForces s.forcesStaged
  { s with scn := { s.scn with staged := [] } }

/-- The overlay of the forces on a word (R286). -/
def overlay (t : List ForceEnt) (n : Nat) (x : DWord) : DWord :=
  match t.find? fun f => f.word == n with
  | some f => (x &&& ~~~f.fe) ||| (f.fv &&& f.fe)
  | none => x

/-! ### Mode changes (R282, R450) -/

/-- The mode changes: MODE[1:0], a mode-changed record by the writer named (1 hardware, 0 Lantern) with its cause
(R477), and HST_ATTN.MODE (R415). -/
def State.changeMode (s : State) (m : Mode) (hw cause : Nat) : State :=
  if s.scn.mode = m then s else
  let s1 := s.logPut 0x0004 (0x06 + 256 * hw)
    [BitVec.ofNat 8 s.scn.mode.code, BitVec.ofNat 8 m.code, BitVec.ofNat 8 cause]
  (({ s1 with scn := { s1.scn with mode := m } }).attn 0).tracePhase

/-- The cycle in progress is abandoned: no phase runs, the timers stop, and releases not yet applied are discarded, the error tasks of an
input transfer that has not come to its step 5 with them, while those marked at H2 wait for the next one (R314); the running
context stops at its next instruction boundary, which a load that holds has still to reach (R192, R195, R282). DESIGN CHOICE: in STOP the
context that ran shows the state ready. -/
def State.abandonCycle (s : State) : State :=
  let s := (s.setPhase .idle).landRunning
  { s with
    scn := { s.scn with holdReq := false, stopReq := false, domStop := false, h1Done := false,
                        stopXfer := none, directDue := false
                        errTasks := if s.scn.phase = .input ∨ s.scn.directDue then [] else s.scn.errTasks }
    car := { s.car with
      running := if s.core.held.isSome then s.car.running else none, latches := 0, due := [] } }

/-! ### Fault classifier (R457 to R461) -/

/-- The bucket of a time for a class: 62.5 × WIN µs each (R457). -/
def State.bucketOf (s : State) (c t : Nat) : Nat :=
  let win := s.f (Reg.FLT_CFG + 4 * c) 21 0
  t * 16 / (1000 * win)

/-- Entry of the classifier for a class and station. -/
def State.fltEnt (s : State) (c stn : Nat) : FltEnt := Map.get (fun _ => {}) s.flt.ents (c * 1024 + stn)

/-- Replace an entry of the classifier. -/
def State.setFltEnt (s : State) (c stn : Nat) (e : FltEnt) : State :=
  { s with flt := { s.flt with ents := Map.set (fun _ => {}) s.flt.ents (c * 1024 + stn) e } }

/-- The faults in the bucket b and the 15 before it. -/
def inWindow (b : Nat) (bs : List (Nat × Nat)) : Nat :=
  (bs.filter fun e => decide (e.1 ≤ b) && decide (b < e.1 + 16)).foldl (fun n e => n + e.2) 0

/-- Count a fault in its bucket, and forget the buckets that have left the window. -/
def countBucket (b : Nat) (bs : List (Nat × Nat)) : List (Nat × Nat) :=
  let bs := bs.filter fun e => decide (b < e.1 + 16)
  match bs with
  | (b0, n) :: t => if b0 = b then (b0, n + 1) :: t else (b, 1) :: (b0, n) :: t
  | [] => [(b, 1)]

/-- The station fields of FLT_LASTSTN [12:0] for class c and the classifier's station number (R460). -/
def lastStn (c stn : Nat) : Nat :=
  if c = 15 then stn + 0x1000 else stn % 32 + 512 * (stn / 32)

/-- The escalation of a class that becomes lasting (R458), where `act` is what escalations 2 and 3 do; they act as 1 on
a standby. -/
def State.escalate (s : State) (act : State → Nat → Nat → Nat → State) (c stn n : Nat) : State :=
  let esc := s.f (Reg.FLT_CFG + 4 * c) 31 30
  let st := 13 ≤ c ∧ c ≤ 15
  let s := s.logPut 0x8050 0x10 [BitVec.ofNat 8 c, BitVec.ofNat 8 (min n 255), BitVec.ofNat 8 esc, 0,
    byteOf (if st then lastStn c stn else 0) 0, byteOf (if st then lastStn c stn else 0) 1]
  let s := if st then s.setReg Reg.FLT_LASTSTN (BitVec.ofNat 32 (lastStn c stn + 0x2000 * c)) else s
  if esc = 0 then s else
  let s := s.attn 1
  if s.standby then s else act s esc c stn

/-- An entry of class c is lasting now: since its last fault no bucket boundary has passed at which its count was below THR (R457). -/
def State.entLasting (s : State) (c : Nat) (e : FltEnt) : Bool :=
  let b := s.bucketOf c s.flt.ft
  e.lasting && (e.buckets.any (fun x => x.1 == b) || decide (s.f (Reg.FLT_CFG + 4 * c) 29 22 ≤ inWindow b e.buckets))

/-- A fault of class c (and station) is counted: TOTAL, its bucket, and the passage to lasting (R457). -/
def State.classifyWith (s : State) (act : State → Nat → Nat → Nat → State) (c stn : Nat) : State :=
  let s := s.bump (Reg.FLT_CNT + 4 * c) 23 0
  let e := s.fltEnt c stn
  let b := s.bucketOf c s.flt.ft
  let bs := countBucket b e.buckets
  let n := inWindow b bs
  let thr := s.f (Reg.FLT_CFG + 4 * c) 29 22
  let was := s.entLasting c e
  let reach := !was && decide (thr ≤ n)
  let s := s.setFltEnt c stn { e with buckets := bs, lasting := was || decide (thr ≤ n) }
  if reach then s.escalate act c stn n else s

/-- A station that is down already becomes failed: its S word shows it (R319). -/
def State.failDown (s : State) (c stn : Nat) : State :=
  if c = 15 then
    match s.hf stn with
    | some x => (s.setHf stn (some { x with st := .failed })).writeStation (256 + stn)
    | none => s
  else if 13 ≤ c then
    match s.stn stn with
    | some x => (s.setStn stn (some { x with st := .failed })).writeStation stn
    | none => s
  else s

/-- A fault counted while the block enters STOP: an escalation to STOP changes nothing more. -/
def State.classifyStopping (s : State) (c stn : Nat) : State :=
  s.classifyWith (fun s esc c stn => if esc = 3 then s.failDown c stn else s) c stn

/-! ### Entry to STOP (R282) -/

/-- DATA requests carry SAFE 1 (R310). -/
def State.sendsSafe (s : State) : Bool :=
  !s.inRun 7 || (decide (s.scn.mode = .stop) && s.scn.stopOut) || (decide (s.scn.mode = .hold) && s.scn.hsafe)

/-- After a change, the links begin to send SAFE 1 requests if they did not before it. -/
def State.safeFrom (s : State) (before : Bool) : State := if s.sendsSafe && !before then s.allSafe else s

/-- Every down-pending station is marked down, as outside RUN the mark takes effect at once (R307). -/
def State.dropPending (s : State) : State :=
  s.stations.foldl (fun s e =>
    if e.2.st = .pending then (s.markDown e.1 .down).classifyStopping 14 e.1 else s) s

/-- A pending SET_MODE is answered: OK when the change it asked for takes effect by its own cause, else ABORTED
(R415). -/
def State.answerSetMode (s : State) (m : Mode) (cause : Nat) : State :=
  match s.hst.jobs.find? fun j => j.op == 0x03 with
  | none => s
  | some j =>
    let ok := cause = 0 ∧ j.args.head? = some m.code
    s.finishJob (fun j => j.op == 0x03) (if ok then rOK else rABORTED)

/-- Entry to STOP at once (R282). Staged force changes are applied as RUN is left, unless PD7 has left RUN (R285). A cycle that ends
in its pad is closed with MARK 2 (R382), and a STOP that a standby would not replay comes with FAIL (R388). -/
def State.stopNow (s : State) (cause : Nat) : State :=
  let s := if s.scn.phase = .pad then s.sendHzn 2 else s
  let s := if s.inRun 7 then s.applyForces else s
  let safe := s.sendsSafe
  let s := (s.abandonCycle).writeDue
  let s := ((s.changeMode .stop 0 cause).dropPending).safeFrom safe
  let s := if s.replicates && (cause == 2 || cause == 6 || s.scn.failDue) then s.sendFail (Config.failCause 3) else s
  State.answerSetMode { s with scn := { s.scn with failDue := false } } .stop cause

/-- A cause asks for STOP at once: an output transfer in progress completes first, unless PD7 has left RUN (R282). -/
def State.enterStop (s : State) (cause : Nat) : State :=
  if s.scn.mode = .run ∨ s.scn.mode = .hold then
    if s.scn.phase = .output ∧ s.inRun 7 ∧ s.scn.mode = .run then
      { s with scn := { s.scn with stopXfer := some (s.scn.stopXfer.getD cause) } }
    else s.stopNow cause
  else s

/-! ### Pair roles (R386, R391) -/

/-- Take role 2 at once: a block in RUN or HOLD enters STOP (R372, R388). -/
def State.roleTwo (s : State) : State :=
  let s := { s with bcn := { s.bcn with
    role := 2, sync := false, decided := none, taking := false, deltas := [], entries := [], horizons := [], marks := []
    hks := [], held := [], nak := false, closing := false, resync := .none, dirty := [], handoff := false } }
  if s.scn.mode = .run ∨ s.scn.mode = .hold then s.stopNow 10 else s

/-- The primary sends FAIL and takes role 2, in which it stays in STOP (R372, R388). -/
def State.failTwo (s : State) (cause : Nat) : State :=
  let t := s.sendFail cause
  if t.bcn.role = s.bcn.role then s else t.roleTwo

/-- A synchronised standby diverges (R386); one that is completing a takeover does not follow any more. -/
def State.diverge (s : State) (cause : Nat) : State :=
  if s.bcn.role ≠ 4 ∨ s.bcn.taking then s else
  let s := s.logPut 0x8040 0x0B ([BitVec.ofNat 8 cause, 0, 0, 0] ++ toBytes s.scn.cyc 4)
  let s := s.count Reg.BCN_DIVCNT
  let s := s.roleTwo
  let s : State := { s with bcn := { s.bcn with lastDiv := cause } }
  let s := (s.classifyStopping 19 0).sendStatus cause
  if s.f Reg.BCN_CFG 1 1 = 1 then s.sendHello else s

/-- An escalation to STOP from a memory or clock class is one that a standby would not replay: FAIL comes with the STOP (R388). -/
def State.failClass (s : State) (c : Nat) : State :=
  if c == 1 || c == 2 || c == 3 || c == 7 then { s with scn := { s.scn with failDue := true } } else s

/-! ### Escalations (R319, R458) -/

/-- A station becomes failed by escalation (R319); one that was up drops out. The word that shows it FAILED shows it DOWN as well,
so the dropout's source fires at the input transfer that copies that word (R312), and its substitutes follow by R307 or R314. -/
def State.failStation (s : State) (c stn : Nat) : State :=
  let act (s : State) (esc c stn : Nat) : State :=
    if esc = 2 then (s.failClass c).enterStop 5 else if esc = 3 then s.failDown c stn else s
  if c = 15 then
    match s.hf stn with
    | some x =>
      if x.st = .up then
        let s := s.setHf stn (some { x with st := .failed, subDue := some false, dropMark := true, retMark := false })
        ((s.markTask stn x).classifyWith act 15 stn).writeStation (256 + stn)
      else s.failDown c stn
    | none => s
  else if 13 ≤ c then
    match s.stn stn with
    | some x =>
      if x.isUp then (((s.markDown stn .failed).dropShown stn).classifyWith act 14 stn).writeStation stn
      else s.failDown c stn
    | none => s
  else s

/-- A fault of class c (and station) is counted, with its escalation. -/
def State.classify (s : State) (c stn : Nat) : State :=
  s.classifyWith (fun s esc c stn =>
    if esc = 2 then (s.failClass c).enterStop 5 else if esc = 3 then s.failStation c stn else s) c stn

/-! ### Answers and machine checks -/

/-- An access is answered DOMAIN_OFF or ABORTED (R56, R57): source 104, class 4. -/
def State.domainOff (s : State) : State := (s.fire 104).classify 4 0

/-- A machine check condition arises: its bit, its issuer and its address; it waits for Lantern. DESIGN CHOICE: of a
condition without an issuer (a clock's loss, a word that the scrub finds) EXC_MCINFO shows LANT 1 and CTX 0. -/
def State.mcheck (s : State) (cond : Nat) (issuer : Option Nat) (addr : Nat) : State :=
  let s := s.setB Reg.EXC_MCPEND cond
  let s := s.setReg Reg.EXC_MCINFO (BitVec.ofNat 32 (issuer.getD 0 + (if issuer.isNone then 64 else 0) + 256 * cond))
  s.setF Reg.EXC_MCADDR 22 0 addr

/-- A Lantern access to a domain that is off or in reset, or to a mapped-out half (R17, R228, R264). -/
def State.lanternOff (s : State) (a : Nat) : State := (s.domainOff).mcheck 2 none a

end Sys2Proof.Machine
end

