-- ==== Sys2Proof/Machine/Carillon.lean ====
section
/-! DEFINITION. Carillon (R185 to R210): initialisation of a context, releases, latches, selection and the switch, and
the end of the program phase. -/

namespace Sys2Proof.Machine

/-! ### Registers of contexts (R186) -/

/-- Word i of context n's descriptor. -/
def cdReg (n i : Nat) : Nat := Reg.CAR_CD + 32 * n + 4 * i
def State.cdCtrl (s : State) (n : Nat) : Word := s.reg (cdReg n 0)

/-- K4 of context n's descriptor, as its initialisation took it: it runs KX4 binaries (R159). -/
def State.k4 (s : State) (n : Nat) : Bool := bit (s.ctx n).ctrl 7

/-- The descriptor table index of selector k of context n. -/
def State.cdIdx (s : State) (n k : Nat) : Nat := fld (s.reg (cdReg n (2 + k / 4))) (8 * (k % 4) + 7) (8 * (k % 4))

/-- Entry i of the segment descriptor table (R101). -/
abbrev sdtBase : Nat := 0x600000
def State.sdt (s : State) (i : Nat) : Word × Word := (s.w32 (sdtBase + 8 * i), s.w32 (sdtBase + 8 * i + 4))

/-- The entry of the descriptor table that selector k of context n is initialised from; a free value where its word cannot be
corrected (R187, R258). -/
def State.initDesc (s : State) (n k : Nat) : Word × Word :=
  let i := s.cdIdx n k
  if s.eccAt (sdtBase + 8 * i) = .double then
    let v := Config.freeDWord (s.free + k)
    (v.setWidth 32, BitVec.ofNat 32 (v.toNat / 2 ^ 32))
  else s.sdt i

/-- A descriptor that SEGLD refuses for selector n (R102), TOS[31:8] apart. -/
def segldRefuses (n idx : Nat) (d : Word × Word) : Bool :=
  decide (idx = 0) || !dVALID d || decide (dBase d % 8 ≠ 0) || decide (dBase d + dLimit d > 0x793FFF)
    || (decide (dBase d ≤ sdtBase + 0x7FF) && decide (sdtBase ≤ dBase d + dLimit d) && !dPRV d)
    || ((decide (n = 2) || decide (n = 3)) && decide ((dLimit d + 1) % 32 ≠ 0))

/-- The bits of a descriptor copy that exist: DLO[31:30] and DHI[23:22] are reserved and read 0 (R88, R100). -/
def descBits (d : Word × Word) : Word × Word := (d.1 &&& 0x3FFFFFFF, d.2 &&& 0xFF3FFFFF)

/-- The copy that selector k takes of a table entry: the INDEX field holds the selector value (R100). -/
def descCopy (idx : Nat) (d : Word × Word) : Word × Word :=
  if idx = 0 then (0, 0) else descBits (d.1, setFld d.2 31 24 idx)

/-- OSP or RSP with an empty memory part: the LIMIT of the segment plus 1. -/
def emptySp (d : Word × Word) : Word := BitVec.ofNat 32 (dLimit d + 1)

/-! ### Initialisation (R187, R188) -/

/-- An initialisation of context n with ENABLE 1 fails (R188). -/
def State.initFails (s : State) (n : Nat) : Bool :=
  let i0 := s.cdIdx n 0
  let d0 := s.initDesc n 0
  let entry := fld (s.reg (cdReg n 1)) 21 0
  decide (i0 = 0) || !dVALID d0 || !dX d0 || decide (entry % 2 = 1) || decide (entry > dLimit d0)
    || (List.range 8).any (fun k => decide (s.cdIdx n k ≠ 0) && segldRefuses k (s.cdIdx n k) (s.initDesc n k))
    || decide (s.cdIdx n 2 = 0) || decide (s.cdIdx n 3 = 0)

/-- The architectural set and the Carillon state that initialisation gives context n (R187); bit 0 of PC is always 0 (R88). The count of its instructions in this
cycle stays (R154), and what a SAVEL or SAVEU noted of it no longer holds (R153). -/
def State.initialCtx (s : State) (n : Nat) : Ctx :=
  let ctrl := s.cdCtrl n
  let d k := descCopy (s.cdIdx n k) (s.initDesc n k)
  let sw : Word := BitVec.ofNat 32 (2 * 64 + (bit ctrl 5).toNat * 0x200 +
    (bit ctrl 6 || bit ctrl 7).toNat * 0x800 + n * 0x1000000)
  let entry := BitVec.ofNat 32 (fld (s.reg (cdReg n 1)) 21 1 * 2)
  { pc := entry
    sw := sw
    ctrl := ctrl
    entry := entry
    segs := (List.range 8).foldl (fun m k => Map.set (fun _ => (0, 0)) m k (d k)) []
    osp := emptySp (d 2)
    rsp := emptySp (d 3)
    prio := fld ctrl 3 0
    icnt := (s.ctx n).icnt
    retired := (s.ctx n).retired + 1
    st := if bit ctrl 4 then .waiting else .idle }

/-- FPOWN becomes none and the pin is removed when context n owned the FP state; a half of its state that a transfer has saved or
loaded counts no more (R187, R205). -/
def State.dropFp (s : State) (n : Nat) : State :=
  let s := { s with core := { s.core with
    fpSaved := s.core.fpSaved.filter (· != n), fpHalf := s.core.fpHalf.filter fun h => h.1 != n } }
  if s.core.fpown = some n then { s with core := { s.core with fpown := none, pin := false } } else s

/-- A failed initialisation of context n halts it, sets CAR_ERR and appends a record (R188). -/
def State.failInit (s : State) (n : Nat) : State :=
  let s := s.updCtx n fun c => { c with st := .halted }
  let s := (s.setB Reg.CAR_ERR 0).setF Reg.CAR_ERR 13 8 n
  s.logPut 0x8013 0x01 ([BitVec.ofNat 8 n, 0, 0, 0] ++ toBytes (s.reg Reg.CAR_ERR).toNat 4)

/-- Initialise context n (R187, R188). -/
def State.initCtx (s : State) (n : Nat) : State :=
  let fails := bit (s.cdCtrl n) 4 && s.initFails n
  let guessed := (List.range 8).any fun k => s.cdIdx n k != 0 && s.eccAt (sdtBase + 8 * s.cdIdx n k) == .double
  let s := (s.dropFp n).setCtx n (s.initialCtx n)
  let s := if guessed then { s with free := s.free + 8 } else s
  if fails then s.failInit n else s

/-! ### Releases (R190, R193) -/

/-- A release that finds its context idle, halted or already pending is lost (R190). -/
def State.lostRelease (s : State) : State := (s.count Reg.CAR_LOST).classify 8 0

/-- Give context n the next arrival number and make it ready. -/
def State.makeReady (s : State) (n : Nat) : State :=
  let s := s.updCtx n fun c => { c with st := .ready, seq := s.car.nextSeq }
  { s with car := { s.car with nextSeq := s.car.nextSeq + 1 } }

/-- Release context n (R190); outside RUN and HOLD releases are discarded (R192). -/
def State.release (s : State) (n : Nat) : State :=
  if !s.takesEvents then s else
  let c := s.ctx n
  match c.st with
  | .waiting => s.makeReady n
  | .ready => if c.pend then s.lostRelease else s.setCtx n { c with pend := true }
  | _ => s.lostRelease

/-- What a preemption record carries besides a source (R381). -/
abbrev preErr : Nat := 128
abbrev preVec : Nat := 256

/-- Record a release for the preemption list, with the cycle's retired count (R194). -/
def State.recordPre (s : State) (n what : Nat) : State :=
  { s with car := { s.car with pre := s.car.pre ++ [⟨s.car.retired, n, what⟩] } }

/-- The context that a source's routing entry releases (R193): EN 1 and a CTX other than 0. -/
def State.route (s : State) (src : Nat) : Option Nat :=
  let r := s.reg (Reg.CAR_ROUTE + 4 * src)
  if bit r 7 && decide (fld r 5 0 ≠ 0) then some (fld r 5 0) else none

/-- The capture of channel m becomes visible as a release from its source is applied; a firing whose routing is disabled
changes nothing that is visible (R328). -/
def State.showCapture (s : State) (m : Nat) (routed : Bool) : State :=
  match Map.get (fun _ => none) s.bea.caps m with
  | none => s
  | some c =>
    let s := { s with bea := { s.bea with caps := Map.set (fun _ => none) s.bea.caps m none } }
    if !routed then s else
    let s := s.setReg (Reg.BEA_CAPP + 0x20 * m) (BitVec.ofNat 32 c.phase)
    let s := s.setReg (Reg.BEA_CAPT + 0x20 * m) (BitVec.ofNat 32 c.time)
    s.setReg (Reg.BEA_CAPF + 0x20 * m) (BitVec.ofNat 32 (c.lsrc.toNat + 2 * c.lcap.toNat + 4 * c.dir.toNat
      + 8 * c.merged.toNat + 256 * c.inc))

/-- Take the lowest set latch: its source's context is released, or the firing is discarded (R193). -/
def State.takeLatch (s : State) : State :=
  match lowestSet s.car.latches with
  | none => s
  | some src =>
    let s := { s with car := { s.car with latches := setBit s.car.latches src false } }
    let s := if 32 ≤ src ∧ src < 48 then s.showCapture (src - 32) (s.route src).isSome else s
    match s.route src with
    | none => s
    | some n => (if src < 120 then s.recordPre n src else s).release n

/-- Carillon takes latches, at most n (R193). -/
def State.takeLatches (s : State) : Nat → State
  | 0 => s
  | n + 1 => (s.takeLatch).takeLatches n

/-- An error task is released directly (R193, R271). -/
def State.releaseErr (s : State) (n : Nat) : State := (s.recordPre n preErr).release n

/-- Step 5 of R271: context 0, then the error tasks, whose releases a standby takes from its primary. -/
def State.directReleases (s : State) : State :=
  let tasks := s.scn.errTasks
  let s := s.release 0
  let s := { s with scn := { s.scn with errTasks := [], directDue := false } }
  if s.follows then s else (tasks.map (·.2)).foldl State.releaseErr s

/-- Step 4 of the input transfer (R271): the sources that the copy brought fire, and their latches are taken. -/
def State.deliver (s : State) : State :=
  let fires := s.scn.fires
  let s := fires.foldl State.fire { s with scn := { s.scn with fires := [] } }
  s.takeLatches (popCount s.car.latches)

/-- At the running context's next boundary, the releases that waited for it are applied (R194). -/
def State.lateReleases (s : State) : State := if s.scn.directDue then s.deliver.directReleases else s

/-! ### Selection and switching (R196, R197) -/

/-- Of two ready contexts, the one Carillon selects: the higher priority, then the lower arrival number. -/
def State.better (s : State) (a b : Nat) : Bool :=
  let ca := s.ctx a
  let cb := s.ctx b
  decide (ca.prio > cb.prio) || (decide (ca.prio = cb.prio) && decide (ca.seq < cb.seq))

/-- The contexts that are ready or running, ascending. -/
def State.readySet (s : State) : List Nat := (List.range 64).filter fun n => decide ((s.ctx n).st = .ready)

/-- The context that Carillon selects. -/
def State.selected (s : State) : Option Nat :=
  s.readySet.foldl (fun best n => match best with
    | none => some n
    | some m => if s.better n m then some n else some m) none

/-- The boundary after the running context's last instruction admits a switch (R197): no lock, GM 0, no delay slot
to come, no load held, and no fault entry whose handler has not begun, its safe point apart (R216). -/
def State.boundaryFree (s : State) : Bool :=
  match s.car.running with
  | none => true
  | some n =>
    let c := s.ctx n
    decide (c.lkc = 0) && !bit c.sw swGM && decide (c.slot = .none) && s.core.held.isNone && (!c.chain || c.yielded)

/-- Put context n on the core: its FPA is 1 exactly when it owns the FP state (R197, R204). -/
def State.putOnCore (s : State) (n : Nat) : State :=
  let s := s.updCtx n fun c => { c with sw := setBit c.sw swFPA (decide (s.core.fpown = some n)) }
  { s with car := { s.car with running := some n } }

/-- The outgoing context leaves the core: a loaded value on its way lands first (R140). -/
def State.leaveCore (s : State) : State :=
  let s := s.landRunning
  { s with car := { s.car with running := none } }

/-- The core runs contexts: RUN, no debug halt, stranded halt or lockup, and no share slot of Lantern's in progress (R199); or a debug
step in progress (R437). -/
def State.coreRuns (s : State) : Bool :=
  (decide (s.scn.mode = .run) && decide (s.core.halt = .none) && !s.core.lantern.slot)
    || (s.dbg.step.isSome && !s.dbg.stepDone && decide (s.core.halt = .debug))

/-- CYC[15:0] of the cycle in progress, as the header of a Beacon frame names it (R375). -/
def State.cyc16 (s : State) : Nat := s.scn.cyc % 65536

/-- A standby's entries that its retired count has reached (R381), and its highest horizon (R382). -/
def State.entriesDue (s : State) : List PreIn :=
  s.bcn.entries.filter fun e => e.cyc == s.cyc16 && decide (e.count ≤ s.car.retired)
def State.horizon (s : State) : Nat :=
  (s.bcn.horizons.filter fun h => h.1 == s.cyc16).foldl (fun m h => max m h.2) 0

/-- A standby's core waits: entries are to be applied first, or the next instruction would pass the horizon. A
takeover lifts the horizon, not the entries (R390). -/
def State.replayStalls (s : State) : Bool :=
  decide (s.bcn.role = 4) && (!s.entriesDue.isEmpty || (!s.bcn.taking && decide (s.horizon ≤ s.car.retired)))

/-- Carillon's switch waits: another context is selected, the core runs, and no step holds the core. -/
def State.switchWaits (s : State) : Bool :=
  s.coreRuns && s.dbg.step.isNone && (decide (s.bcn.role ≠ 4) || s.entriesDue.isEmpty)
    && s.selected.isSome && decide (s.selected ≠ s.car.running)

/-- Switch to the selected context, where the boundary admits it (R197); the release that asked for it has had its latency
(R198). -/
def State.switch (s : State) : State :=
  if s.switchWaits && s.boundaryFree then
    match s.selected with
    | none => s
    | some n =>
      let out := ctxByte s.car.running
      let t := ((s.leaveCore).putOnCore n).traceSwitch (ctxByte (some n)) out (s.ctx n).pc.toNat
      { t with car := { t.car with measured := t.car.measured + 1 } }
  else s

/-! ### The end of the program phase (R12) -/

/-- A block that replays a primary needs MARK 1 at its own count to end the program phase (R382). -/
def State.markOk (s : State) : Bool :=
  decide (s.bcn.role ≠ 4) || s.bcn.taking
    || s.bcn.marks.any fun m => m.1 == s.cyc16 && m.2 == s.car.retired % 2 ^ 32

/-- A standby diverges where its program phase could end and the MARK 1 that has arrived names another count, or where
its count is that of MARK 1 and the phase cannot end, no entry being left to apply (R382). -/
def State.markCheck (s : State) : State :=
  if s.bcn.role ≠ 4 || s.bcn.taking || decide (s.scn.phase ≠ .program) || decide (s.scn.mode ≠ .run) then s else
  match s.bcn.marks.find? fun m => m.1 == s.cyc16 with
  | none => s
  | some m =>
    let ends := s.car.running.isNone && s.readySet.isEmpty
    let due := s.bcn.entries.any fun e => e.cyc == s.cyc16
    let here := decide (m.2 = s.car.retired % 2 ^ 32)
    if (ends && !here && !due) || (here && !ends && !due) then s.diverge 2 else s

/-- Down-pending stations are marked down (R307). -/
def State.dropAtTransfer (s : State) : State :=
  s.stations.foldl (fun (s : State) e =>
    if e.2.st = .pending then (s.markDown e.1 .down).classify 14 e.1 else s) s

/-- The program phase ends once context 0 has executed END_SCAN and no context is ready or running: the output
transfer begins, and its first step marks down-pending stations down (R307). SCN_PROGT takes the phase's length. -/
def State.programEnd (s : State) : State :=
  if s.scn.phase = .program ∧ s.scn.mode = .run ∧ s.car.running = none ∧ s.readySet = [] ∧ s.markOk then
    let s := s.sendHzn 1
    let s := s.setReg Reg.SCN_PROGT (BitVec.ofNat 32 (min (s.clk.us - s.scn.progFrom) 0xFFFFFFFF))
    let s := s.setPhase .output
    let s : State := { s with scn := { s.scn with xferT := s.clk.us } }
    if s.follows then s else s.dropAtTransfer
  else s.markCheck

/-! ### Context states by instruction (R145, R190) -/

/-- Context n leaves the core of itself; the SWITCH packet says so where no context takes its place. -/
def State.offCore (s : State) (n : Nat) : State :=
  let s := { s with car := { s.car with running := none } }
  if s.readySet.isEmpty then s.traceSwitch 0x80 (ctxByte (some n)) 0 else s

/-- What END_SCAN and ENDT leave of a context's architectural set (R145). -/
def State.endActivation (s : State) (n : Nat) : State :=
  s.updCtx n fun c => { c with
    pc := c.entry
    oc := [], rc := [], osp := emptySp (c.seg 2), rsp := emptySp (c.seg 3)
    ls := 0, ldepth := 0, prog := 0, load := none, slot := .none }

/-- Halt context n (R190): a pending release is dropped, and an owner of the FP state loses its pin (R207). -/
def State.haltCtx (s : State) (n : Nat) : State :=
  let c := s.ctx n
  if c.st = .idle ∨ c.st = .halted then s else
  let s := s.setCtx n { c with st := .halted, pend := false }
  let s := if s.core.fpown = some n then { s with core := { s.core with pin := false } } else s
  if s.car.running = some n then s.offCore n else s

/-- The value of CSTAT n and CAR_CSTATn (R210). -/
def State.cstat (s : State) (n : Nat) : Word :=
  let c := s.ctx n
  let st := if s.car.running = some n then 3 else match c.st with
    | .idle => 0
    | .waiting => 1
    | .ready => 2
    | .halted => 4
  let own := decide (s.core.fpown = some n)
  BitVec.ofNat 32 (st + c.pend.toNat * 8 + c.prio * 16 + own.toNat * 256 + (own && s.core.pin).toNat * 512
    + c.fpv.toNat * 1024)

/-! ### Time -/

/-- Timer n restarts: it fires PERIOD µs from now when it is enabled with a period other than 0 (R195). -/
def State.restartTimer (s : State) (n : Nat) : State :=
  let r := s.reg (Reg.CAR_TMR + 4 * n)
  let d := if bit r 31 && decide (fld r 23 0 ≠ 0) && s.takesEvents then some (s.clk.us + fld r 23 0) else none
  { s with car := { s.car with due := Map.set (fun _ => none) s.car.due n d } }

end Sys2Proof.Machine
end

