-- ==== Sys2Proof/Machine/Banks.lean ====
section
/-! DEFINITION. The banks: regions and their domains (R18), map-out (R264), error correction (R258), stores with their
stamps (R269), and the invalidation of the caches and of the prediction tables (R180). -/

namespace Sys2Proof.Machine

/-! ### Regions (R18) -/

/-- The regions of the block physical map. -/
inductive Region where
  | cba | cbb | db | sb | ib | xb | kb | rom | log | regs | reserved
  deriving DecidableEq, Repr

/-- The region of a block physical address. -/
def regionOf (a : Nat) : Region :=
  if a < 0x200000 then .cba
  else if a < 0x400000 then .cbb
  else if a < 0x600000 then .db
  else if a < 0x680000 then .sb
  else if a < 0x6C0000 then .ib
  else if a < 0x700000 then .xb
  else if a < 0x740000 then .kb
  else if a < 0x750000 then .rom
  else if a < 0x754000 then .log
  else if a < 0x780000 then .reserved
  else if a < 0x794000 then .regs
  else .reserved

/-- The power domain that serves an address. -/
def domainOf (a : Nat) : Nat :=
  match regionOf a with
  | .cba => 4
  | .cbb => 5
  | .db => 6
  | .sb => 6
  | .ib => 7
  | .xb => 8
  | .kb => 3
  | .rom => 3
  | .log => 0
  | .regs => pageDomain (pageOf a)
  | .reserved => 0

/-- MEM_ESYN.BANK of an address (R266). -/
def bankCode (a : Nat) : Nat :=
  match regionOf a with
  | .cba => 0
  | .cbb => 1
  | .db => 2
  | .sb => 3
  | .ib => 4
  | .xb => 5
  | .kb => 6
  | _ => 7

/-- The bit of MAPOUT whose half an address lies in (R80, R263); none for a bank that has no halves there. -/
def mapBit (a : Nat) : Option Nat :=
  match regionOf a with
  | .db => some (if a < 0x500000 then 0 else 1)
  | .sb => some (if a < 0x640000 then 2 else 3)
  | .ib => some (if a < 0x6A0000 then 4 else 5)
  | .xb => some (if a < 0x6E0000 then 6 else 7)
  | .cba => some (if a < 0x100000 then 8 else 9)
  | .cbb => some (if a < 0x300000 then 10 else 11)
  | _ => none

/-- The address lies in a mapped-out half (R264). -/
def State.mappedOut (s : State) (a : Nat) : Bool :=
  match mapBit a with
  | some b => bit (s.reg Reg.MEM_MAPOUT) b
  | none => false

/-- A code bank is active: it holds the active generation, or both do when it is joined (R352). -/
def State.activeBank (s : State) (a : Nat) : Bool :=
  match regionOf a with
  | .cba => decide (s.str.gen = 1) || decide (s.str.gen = 3)
  | .cbb => decide (s.str.gen = 2) || decide (s.str.gen = 3)
  | _ => false

/-! ### Error correction (R258) -/

/-- Record an error's address, syndrome, bank and master (R266). -/
def State.recordErr (s : State) (a master : Nat) (unc : Bool) : State :=
  let w := a / 8 * 8
  let s := s.setReg Reg.MEM_EADDR (BitVec.ofNat 32 (w + unc.toNat * 0x800000 + 0x80000000))
  s.setReg Reg.MEM_ESYN (BitVec.ofNat 32 (1 + Config.syndrome (a / 8) % 255 + bankCode a * 256 + master * 4096))

/-- A single-bit error is corrected: it is counted, recorded, fires source 105, and its word waits to be written back
while MEM_CTRL.CWB is 1. -/
def State.corrected (s : State) (a master : Nat) : State :=
  let s := (((s.count Reg.MEM_CECC).classify 1 0).recordErr a master false).fire 105
  if s.f Reg.MEM_CTRL 1 1 = 1 ∧ a / 8 ∉ s.banks.writeback then
    { s with banks := { s.banks with writeback := s.banks.writeback ++ [a / 8] } }
  else s

/-- An error that cannot be corrected is found: counted, recorded, logged, and source 106 fires (R258, R450). A
synchronised standby that meets one in DB, SB or IB diverges (R386). -/
def State.uncorrectable (s : State) (a master : Nat) : State :=
  let s := (((s.count Reg.MEM_UECC).classify 2 0).recordErr a master true).fire 106
  let s := s.logPut 0x8022 0x05 (toBytes (s.reg Reg.MEM_EADDR).toNat 4 ++ toBytes (s.reg Reg.MEM_ESYN).toNat 4)
  if decide (0x400000 ≤ a) && decide (a < 0x6C0000) then s.diverge 6 else s

/-- Read check of the word of an address: true where the data is delivered, corrected if need be (R258). -/
def State.eccRead (s : State) (a master : Nat) : Bool × State :=
  match s.eccAt a with
  | .none => (true, s)
  | .single => (true, s.corrected a master)
  | .double => (false, s.uncorrectable a master)

/-- A scrub reads the word of an address: a single error is corrected and written back at once; the answer says whether the word
could be read (R259, R262). -/
def State.scrubRead (s : State) (a master : Nat) : Bool × State :=
  let r := s.eccRead a master
  if r.1 then
    let s := r.2.setEcc a .none
    (true, { s with banks := { s.banks with writeback := s.banks.writeback.filter (· != a / 8) } })
  else r

/-- The words with a latent error in a range of bytes. -/
def State.badWords (s : State) (a n : Nat) : List Nat :=
  (s.banks.ecc.filter fun e => decide (a / 8 ≤ e.1) && decide (e.1 * 8 < a + n)).map (·.1)

/-- Every latent error in a range is met by a read; true where the whole range could be delivered (R258). -/
def State.eccSweep (s : State) (a n master : Nat) : Bool × State :=
  (s.badWords a n).foldl (fun (r : Bool × State) w => let q := r.2.eccRead (w * 8) master; (r.1 && q.1, q.2)) (true, s)

/-- Lantern reads the 64-bit word of an address as the core port; an error that cannot be corrected is machine check condition 1
(R228, R258). -/
def State.lanternCheck (s : State) (a : Nat) : Bool × State :=
  match s.eccRead a 0 with
  | (true, s) => (true, s)
  | (false, s) => (false, s.mcheck 1 none a)

/-- Lantern reads a range; true where the whole range could be delivered. -/
def State.lanternSweep (s : State) (a n : Nat) : Bool × State :=
  (s.badWords a n).foldl (fun (r : Bool × State) w => let q := r.2.lanternCheck (w * 8); (r.1 && q.1, q.2)) (true, s)

/-- Lantern reads the 64-bit words of some addresses; what it gets of one that cannot be corrected is a free value (R258). -/
def State.lanternWords (s : State) : List Nat → List DWord × State
  | [] => ([], s)
  | a :: t =>
    let r := s.lanternCheck a
    let v := if r.1 then r.2.w64 a else Config.freeDWord r.2.free
    let q := (if r.1 then r.2 else r.2.tickFree).lanternWords t
    (v :: q.1, q.2)

/-- Lantern reads the bytes of a range; what it gets of a word that cannot be corrected is a free value (R258). -/
def State.lanternBytes (s : State) (a n : Nat) : List Byte × State :=
  let r := s.lanternSweep a n
  if r.1 then ((rangeFrom a n).map r.2.byte, r.2) else
  ((rangeFrom a n).map fun b =>
      if r.2.eccAt b = .double then
        BitVec.ofNat 8 ((Config.freeDWord (r.2.free + (b / 8 - a / 8))).toNat / 2 ^ (8 * (b % 8)))
      else r.2.byte b,
    { r.2 with free := r.2.free + n / 8 + 2 })

/-! ### Stores to a bank (R256, R269) -/

/-- The core port has written n bytes of XB from an address (R260). -/
def State.xbWrote (s : State) (a n : Nat) : State :=
  if regionOf a ≠ .xb ∨ (a, n) ∈ s.banks.xbCore then s
  else { s with banks := { s.banks with xbCore := (a, n) :: s.banks.xbCore } }

/-- Write bytes that fill whole 64-bit words: the words take new check bits (R256). -/
def State.putWhole (s : State) (a : Nat) (bs : List Byte) : State :=
  State.mwriteBytes { s with banks := { s.banks with
    ecc := Map.drop (fun w => decide (a ≤ 8 * w) && decide (8 * w + 8 ≤ a + bs.length)) s.banks.ecc } } a bs

/-- Write bytes of a 64-bit word, not all of it: the word is read first, and keeps its contents where its error cannot be
corrected (R256, R258); false then. -/
def State.putPart (s : State) (a : Nat) (bs : List Byte) (master : Nat) : Bool × State :=
  match s.eccRead a master with
  | (true, s) => (true, (s.setEcc a .none).mwriteBytes a bs)
  | (false, s) => (false, s)

/-- Write bytes from an address, word by word; false where a word has kept its contents. -/
def State.putBytes (s : State) (a : Nat) (bs : List Byte) (master : Nat) : Bool × State :=
  let h := min bs.length ((8 - a % 8) % 8)
  let m := (bs.length - h) / 8 * 8
  let s := if bs.isEmpty then s else s.xbWrote a bs.length
  let r := if h = 0 then (true, s) else s.putPart a (bs.take h) master
  let s := if m = 0 then r.2 else r.2.putWhole (a + h) ((bs.drop h).take m)
  let t := bs.drop (h + m)
  if t.isEmpty then (r.1, s) else
    let q := s.putPart (a + h + m) t master
    (r.1 && q.1, q.2)

/-- Write bytes from an address; a word that cannot be read for it keeps its contents. -/
def State.overwrite (s : State) (a : Nat) (bs : List Byte) : State := (s.putBytes a bs 0).2

/-- Complete slot n: the reply body first, then its status (R410). A body that meets an error that cannot be corrected makes the
reply ABORTED (R258, R413). -/
def State.complete (s : State) (n code : Nat) (body : List Word) : State :=
  let r := s.putBytes (slotAddr n + 4) (wordsToBytes body) 0
  if r.1 then r.2.completed n code body.length else (r.2.mcheck 1 none (slotAddr n)).completed n rABORTED 0

/-- Lantern writes results into a range of XB; false where the write meets an error that cannot be corrected, a machine check (R228,
R413). -/
def State.writeResult (s : State) (off : Nat) (bs : List Byte) : Bool × State :=
  let r := s.putBytes (xbBase + off) bs 0
  if r.1 then r else (false, r.2.mcheck 1 none (xbBase + off))

/-- Complete the first deferred command that satisfies a test, with a reply body. -/
def State.finishWith (s : State) (p : Job → Bool) (code : Nat) (body : List Word) : State :=
  match takeJob p s.hst.jobs with
  | (some j, rest) => ({ s with hst := { s.hst with jobs := rest } }).complete j.slot code body
  | (none, _) => s

/-- The stamp of image word n becomes CYC[7:0] (R269). DEDUCED: the stamp is a byte of a 64-bit word, so it is written as R256 has it,
and where that word cannot be read the stamp stays as it is; R258 names no other outcome for it. -/
def State.putStamp (s : State) (n master : Nat) : State :=
  (s.putPart (stampAddr n) [BitVec.ofNat 8 s.scn.cyc] master).2

/-- The store reaches the image words that carry stamps: a word whose value changes takes CYC[7:0] (R269). -/
def State.imgWrite (s : State) (n : Nat) (v : DWord) (master : Nat) : State :=
  let old := s.img n
  let s := s.put64 (imgAddr n) v
  if old = v then s else s.putStamp n master

/-- The image word that an address lies in, where it has a stamp. -/
def stampedWord (a : Nat) : Option Nat :=
  if ibBase ≤ a ∧ a < ibBase + 0x20000 then some ((a - ibBase) / 8) else none

/-- The reserved part of the image bank reads 0 (R267): a write to it has no effect. -/
def imgReserved (a : Nat) : Bool := decide (ibBase + 0x3C800 ≤ a) && decide (a < ibBase + 0x3F000)

/-- Write a value of n bytes into a bank whose word has been read for it (R256); an image word that changes is stamped (R269). -/
def State.bankStore (s : State) (a n v master : Nat) : State :=
  if imgReserved a then s else
  let s := (s.setEcc a .none).xbWrote a n
  match stampedWord a with
  | none => s.mwrite a n v
  | some w =>
    let old := s.img w
    let s := s.mwrite a n v
    if s.img w = old then s else s.putStamp w master

/-- Invalidate every line of both caches and the line buffer that lies in an address range; a fill of such a line is not
delivered any more (R180). -/
def State.invalidate (s : State) (lo hi : Nat) : State :=
  let out (l : Nat) : Bool := !(decide (lo / 32 ≤ l) && decide (l ≤ hi / 32))
  let keep (m : List (Nat × List Nat)) : List (Nat × List Nat) :=
    (m.map fun e => (e.1, e.2.filter out)).filter fun e => !e.2.isEmpty
  { s with core := { s.core with
      icache := keep s.core.icache
      dcache := keep s.core.dcache
      fills := s.core.fills.filter fun f => out f.line
      lineBuf := s.core.lineBuf.filter out
      badPar := s.core.badPar.filter fun e => out e.2 } }

/-- Clear the predictor, the indirect-target table and the global history (R173, R174). -/
def State.clearPrediction (s : State) : State := { s with core := { s.core with bp := [], itt := [], gh := 0 } }

end Sys2Proof.Machine
end

