-- ==== Sys2Proof/Machine/Governor.lean ====
section
/-! DEFINITION. The energy governor (R337 to R343) and the transfer of Q words to the shadow output and the staging
(R274, R285, R330), which the governor's passes decide. -/

namespace Sys2Proof.Machine

/-! ### Reads of the image engine (R258, R292) -/

/-- The engine's read of an image or shadow word: a word with an uncorrectable error gives nothing (R292). -/
def State.engRead (s : State) (a : Nat) : Option DWord × State :=
  match s.eccRead a 1 with
  | (true, s) => (some (s.w64 a), s)
  | (false, s) => (none, { (s.count Reg.SCN_IMGERR) with scn := { s.scn with imgErr := true } })

/-- The engine reads the words of some addresses, only to meet their errors. -/
def State.engReads (s : State) (l : List Nat) : State := l.foldl (fun (s : State) a => (s.engRead a).2) s

/-- The words of the force index that hold the first n halfwords and the one that ends them. -/
def indexWords (n : Nat) : List Nat := (List.range (n / 4 + 1)).map fun g => findexAddr (4 * min g 255)

/-- The engine reads the force index of a table, as every transfer does (R284, R292). -/
def State.readIndex (s : State) (t : List ForceEnt) : State := s.engReads (indexWords t.length)

/-- The engine reads a table whole to change it (R285). -/
def State.readTable (s : State) (t : List ForceEnt) : State :=
  (s.readIndex t).engReads ((List.range t.length).flatMap fun e => [forceAddr e, forceAddr e + 8])

/-- The engine applies the staged force changes (R285). As RUN is left at once (R282) `applyForces` alone does it: DESIGN CHOICE, the errors
that its reads of the table meet there are not reported. -/
def State.engineForces (s : State) : State := if s.scn.staged.isEmpty then s else (s.readTable s.forces).applyForces

/-! ### Members and groups -/

/-- A member entry in use that is not inert (R337): its index, its point and weight, the pin, and the binding where the
point is phased. -/
structure Mem where
  i : Nat
  point : Nat
  weight : Nat
  pin : Pin
  bnd : Option Nat
  deriving DecidableEq, Repr

/-- The group of a member, and the registers of a group. -/
def Mem.g (m : Mem) : Nat := m.i / 64
def gcfg (g : Nat) : Nat := Reg.GOV_GCFG + 0x10 * g
def gbud (g : Nat) : Nat := Reg.GOV_GBUD + 0x10 * g
def grec (g : Nat) : Nat := Reg.GOV_GREC + 0x10 * g

/-- Member entry i as the table holds it. -/
def State.entry (s : State) (i : Nat) : Word := Map.get (fun _ => 0) s.gov.tab i

/-- The member entry is a member, inert or not. -/
def isMember (w : Word) : Bool := bit w 26

/-- The member that entry i stands for, unless it is inert. -/
def State.memberOf (s : State) (ph : List Bnd) (i : Nat) (w : Word) : Option Mem :=
  if !isMember w || s.f (gcfg (i / 64)) 6 0 == 0 then none else
  match s.outputPin (fld w 17 0) with
  | none => none
  | some p => if s.safeOf p then none else
    some ⟨i, fld w 17 0, fld w 25 18, p, (ph.find? fun b => b.point == fld w 17 0).map (·.k)⟩

/-- The members that are not inert, group by group, each group by priority. -/
def State.members (s : State) : List Mem :=
  let ph := s.phased
  s.gov.tab.filterMap fun e => s.memberOf ph e.1 e.2

/-- The group has an inert member. -/
def State.hasInert (s : State) (g : Nat) : Bool :=
  let ph := s.phased
  s.gov.tab.any fun e => e.1 / 64 == g && isMember e.2 && (s.memberOf ph e.1 e.2).isNone

/-- E and OFF of a member entry. -/
def State.energised (s : State) (i : Nat) : Bool := Map.get (fun _ => false) s.gov.e i
def State.setEnergised (s : State) (i : Nat) (v : Bool) : State :=
  { s with gov := { s.gov with e := Map.set (fun _ => false) s.gov.e i v } }
def State.offAt (s : State) (i : Nat) : Nat := Map.get (fun _ => 0) s.gov.off i
def State.setOff (s : State) (i t : Nat) : State :=
  { s with gov := { s.gov with off := Map.set (fun _ => 0) s.gov.off i t } }

/-- The member becomes de-energised at a time. -/
def State.deEnergise (s : State) (i t : Nat) : State := (s.setEnergised i false).setOff i t

/-- Group g. -/
def State.grp (s : State) (g : Nat) : Grp := Map.get (fun _ => {}) s.gov.grps g
def State.setGrp (s : State) (g : Nat) (x : Grp) : State :=
  { s with gov := { s.gov with grps := Map.set (fun _ => {}) s.gov.grps g x } }

/-- N(g): the members of g with E 1. -/
def State.energCount (s : State) (ms : List Mem) (g : Nat) : Nat :=
  (ms.filter fun m => m.g == g && s.energised m.i).length

/-- GOV_CTRL.EN. -/
def State.govOn (s : State) : Bool := s.f Reg.GOV_CTRL 0 0 == 1

/-! ### The budget (R340) -/

/-- The bucket of a time for group g. -/
def State.govBucket (s : State) (g t : Nat) : Nat := t * 16 / (1000 * s.f (gbud g) 25 16)

/-- spent(g, T). -/
def State.spent (s : State) (g t : Nat) : Nat :=
  let b := s.govBucket g t
  ((s.grp g).charges.filter fun e => decide (e.1 ≤ b) && decide (b < e.1 + 16)).foldl (fun n e => n + e.2) 0

/-- Charge a weight at time T. -/
def State.charge (s : State) (g t w : Nat) : State :=
  let b := s.govBucket g t
  let x := s.grp g
  s.setGrp g { x with charges := (b, w) :: x.charges.filter fun e => decide (b < e.1 + 16) }

/-! ### The current output value of a point -/

/-- The value that the outputs hold for a member: the strobed bit of a phased point, else the shadow output bit. -/
def State.outputNow (s : State) (point : Nat) (bnd : Option Nat) : Bool :=
  match bnd with
  | some k => bit s.bea.strobed k
  | none => bit (s.shOut (point / 64)) (point % 64)

/-- GOV_CTRL.EN is written 1, or PD7 is ready: every member's E takes its current output value (R338). DEDUCED: of a word of the shadow
output that cannot be read, the bit is taken as the word holds it. -/
def State.govRestart (s : State) : State :=
  let ph := s.phased
  let s := s.engReads (((s.gov.tab.filter fun e => isMember e.2).map fun e => shOutAddr (fld e.2 17 6)).eraseDups)
  s.gov.tab.foldl (fun s e => if !isMember e.2 then s else
    (s.setEnergised e.1 (s.outputNow (fld e.2 17 0) ((ph.find? fun b => b.point == fld e.2 17 0).map (·.k)))).setOff e.1 0) s

/-! ### Sag (R342) -/

/-- A point's bit of the shadow output becomes 0; where its word cannot be read, the word keeps its contents (R258, R292). -/
def State.outputOff (s : State) (point : Nat) : State :=
  match s.engRead (shOutAddr (point / 64)) with
  | (some x, s) => s.put64 (shOutAddr (point / 64)) (setBit x (point % 64) false)
  | (none, s) => s

/-- A member is switched off without phase by a sag policy. DEDUCED: what a phased point's channel has staged and ready becomes 0 as well,
for a switch-on of it is to pass pass 3 anew. -/
def State.sagOff (s : State) (m : Mem) (t : Nat) : State :=
  let s := (s.deEnergise m.i t).outputOff m.point
  match m.bnd with
  | some k => State.resince { s with bea := { s.bea with
      strobed := setBit s.bea.strobed k false, staging := setBit s.bea.staging k false, ready := setBit s.bea.ready k false } }
  | none => s

/-- Switch off the energised members of a list, the first first, while more than `keep` of the group are energised. -/
def State.shed (s : State) (all : List Mem) (g keep t : Nat) : List Mem → State
  | [] => s
  | m :: rest =>
    if s.energised m.i && decide (keep < s.energCount all g) then (s.sagOff m t).shed all g keep t rest
    else s.shed all g keep t rest

/-- The engine reads the S words of the members' stations (R292). -/
def State.statReads (s : State) (ms : List Mem) : State :=
  s.engReads ((ms.map fun m => shStatAddr (256 + m.pin.key)).eraseDups)

/-- Some member's unit reports SUPLOW or SUPMISS in the shadow status; a word that cannot be read reports nothing. -/
def State.supplyReport (s : State) (ms : List Mem) (g : Nat) : Bool :=
  ms.any fun m => m.g == g && bit (s.shStat (256 + m.pin.key)) (48 + m.pin.unit)
    && decide (s.eccAt (shStatAddr (256 + m.pin.key)) ≠ .double)

/-- Pass 1 for group g at time T. -/
def State.updateSag (s : State) (ms : List Mem) (t g : Nat) : State :=
  let x := s.grp g
  let rep := s.supplyReport ms g
  if x.sag then
    if rep then s.setGrp g { x with seen := t }
    else if x.seen + 1000 * s.f (grec g) 15 0 ≤ t then s.setGrp g { x with sag := false }
    else s
  else if rep && decide (0 < s.energCount ms g) then
    let s := s.setGrp g { x with sag := true, seen := t }
    let mine := ms.filter fun m => m.g == g
    match s.f (gcfg g) 9 8 with
    | 1 => s.shed ms g 0 t mine.reverse
    | 2 => s.shed ms g (s.f (gcfg g) 15 10) t mine.reverse
    | _ => s
  else s

/-- Pass 1. -/
def State.pass1 (s : State) (ms : List Mem) (t : Nat) : State :=
  (List.range 64).foldl (fun s g => s.updateSag ms t g) s

/-! ### The passes of a transfer (R339) -/

/-- The overlays of the Q words that a transfer treats, by word. -/
abbrev Overlays := List (Nat × DWord)

/-- The requested value of a point: none where the transfer does not treat its word. -/
def wantOf (ov : Overlays) (point : Nat) : Option Bool :=
  (ov.find? fun e => e.1 == point / 64).map fun e => bit e.2 (point % 64)

/-- Pass 2: the switch-off of an ordinary point is admitted; a phased one ends with its strobe. -/
def State.pass2 (s : State) (ms : List Mem) (ov : Overlays) (t : Nat) : State :=
  ms.foldl (fun s m =>
    if wantOf ov m.point == some false && s.energised m.i && m.bnd.isNone then s.deEnergise m.i t else s) s

/-- The switch-on of a member is deferred at time T (R339); a weight of 0 always fits the budget (R340). -/
def State.defers (s : State) (ms : List Mem) (m : Mem) (t : Nat) : Bool :=
  (s.grp m.g).sag || decide (s.f (gcfg m.g) 6 0 ≤ s.energCount ms m.g)
    || (decide (m.weight ≠ 0) && decide (s.f (gbud m.g) 15 0 < s.spent m.g t + m.weight))
    || decide (t < s.offAt m.i + 1000 * s.f (gcfg m.g) 31 16)

/-- Pass 3: every switch-on is admitted and charged, or deferred and counted. -/
def State.pass3 (s : State) (all : List Mem) (ov : Overlays) (t : Nat) : List Mem → State
  | [] => s
  | m :: rest =>
    if wantOf ov m.point == some true && !s.energised m.i then
      if s.defers all m t then
        let x := s.grp m.g
        ((s.setGrp m.g { x with defer := true, defcnt := satInc x.defcnt 0xFFFF }).count
          (Reg.GOV_GDEF + 0x10 * m.g)).pass3 all ov t rest
      else ((s.setEnergised m.i true).charge m.g t m.weight).pass3 all ov t rest
    else s.pass3 all ov t rest

/-- The admitted value of a point: off where its member asks for on and is not energised. -/
def State.admitted (s : State) (ms : List Mem) (point : Nat) (v : Bool) : Bool :=
  match ms.find? fun m => m.point == point with
  | some m => v && s.energised m.i
  | none => v

/-- The admitted word of Q word w. -/
def State.admitWord (s : State) (ms : List Mem) (w : Nat) (x : DWord) : DWord :=
  (ms.filter fun m => m.point / 64 == w).foldl (fun x m =>
    setBit x (m.point % 64) (bit x (m.point % 64) && s.energised m.i)) x

/-- The admitted values go out: phased points to the staging, the others to the shadow output (R274, R330). A word of the shadow output
that holds a phased point's bit is read to keep it, and keeps its contents where it cannot be read (R258). -/
def State.writeAdmitted (s : State) (ms : List Mem) (ph : List Bnd) (ov : Overlays) : State :=
  ov.foldl (fun s e =>
    let adm := s.admitWord ms e.1 e.2
    let mine := ph.filter fun b => b.point / 64 == e.1
    let s := if mine.isEmpty then s.put64 (shOutAddr e.1) adm else
      match s.engRead (shOutAddr e.1) with
      | (some old, s) =>
        s.put64 (shOutAddr e.1) (mine.foldl (fun (x : DWord) b => setBit x (b.point % 64) (bit old (b.point % 64))) adm)
      | (none, s) => s
    { s with bea := { s.bea with
        staging := mine.foldl (fun (x : BitVec 256) (b : Bnd) => setBit x b.k (bit adm (b.point % 64))) s.bea.staging } }) s

/-- The staging of every channel becomes ready (R333). -/
def State.stagingReady (s : State) : State :=
  let ph := s.phased
  ({ s with bea := { s.bea with
      ready := ph.foldl (fun (x : BitVec 256) (b : Bnd) => setBit x b.k (bit s.bea.staging b.k)) s.bea.ready
      isReady := ph.foldl (fun (x : BitVec 256) (b : Bnd) => setBit x b.k true) s.bea.isReady } }).resince

/-- S word 64 + g (R343). -/
def State.grpWord (s : State) (ms : List Mem) (g t : Nat) : DWord :=
  let x := s.grp g
  let en := s.govOn
  BitVec.ofNat 64 ((if en then s.energCount ms g else 0) + (en && x.sag).toNat * 0x100 + (en && x.defer).toNat * 0x200
    + (s.hasInert g).toNat * 0x400 + en.toNat * 0x800 + min (s.spent g t) 0xFFFF * 2 ^ 16 + x.defcnt * 2 ^ 32)

/-- The groups that have a member or have shown something in their S word: the others' words are those of an empty
group. -/
def State.writeGroups (s : State) (ms : List Mem) (t : Nat) : State :=
  (List.range 64).foldl (fun s g => s.putStat (64 + g) (s.grpWord ms g t)) s

/-- The engine reads the force entry of image word n, if there is one; false where it, or its halfword of the index, cannot be read
(R292). -/
def State.forceRead (s : State) (t : List ForceEnt) (n : Nat) : Bool × State :=
  match t.findIdx? fun f => f.word == n with
  | none => (true, s)
  | some e =>
    let r := s.engRead (forceAddr e)
    let q := r.2.engRead (forceAddr e + 8)
    (r.1.isSome && q.1.isSome && decide (s.eccAt (findexAddr e) ≠ .double), q.2)

/-- The overlays of a list of Q words; a word or a force entry that cannot be read is left out. -/
def State.overlays (s : State) (t : List ForceEnt) : List Nat → Overlays × State
  | [] => ([], s)
  | w :: ws =>
    let r := s.engRead (imgAddr (4096 + w))
    let q := r.2.forceRead t (4096 + w)
    match r.1, q.1 with
    | some x, true =>
      let rest := q.2.overlays t ws
      ((w, overlay t (4096 + w) x) :: rest.1, rest.2)
    | _, _ => q.2.overlays t ws

/-- A transfer of Q words at time T, by an output transfer (`full`) or by a force transfer. -/
def State.transfer (s : State) (full : Bool) (ws : List Nat) (t : Nat) : State :=
  let r := (s.readIndex s.forces).overlays s.forces ws
  let ov := r.1
  let s := r.2
  let ms := if s.govOn then s.members else []
  let ph := s.phased
  let s := if full then { s with gov := { s.gov with grps := (s.gov.grps.map fun e => (e.1, { e.2 with defer := false })).filter fun e => decide (e.2 ≠ {}) } } else s
  let s := if full && s.govOn then (s.statReads ms).pass1 ms t else s
  let s := s.pass2 ms ov t
  let s := s.pass3 ms ov t ms
  let s := (s.writeAdmitted ms ph ov).stagingReady
  if full then s.writeGroups ms t else s

/-- The Q words whose entries a change of the force table alters (R285). -/
def changedWords (old new : List ForceEnt) : List Nat :=
  let ws := (old ++ new).filter fun f => decide (old.find? (fun g => g.word == f.word) ≠ new.find? fun g => g.word == f.word)
  ((ws.filter fun f => decide (4096 ≤ f.word)).map fun f => f.word - 4096).eraseDups

/-- Force changes take effect at once in HOLD, with a force transfer of the Q words that they alter (R285). -/
def State.forceInHold (s : State) : State :=
  let old := s.forces
  let back := s.scn.phase
  let s := (s.engineForces).setPhase .force
  (s.transfer false (changedWords old s.forces) s.clk.us).setPhase back

end Sys2Proof.Machine
end

