-- ==== Sys2Proof/Machine/Halt.lean ====
section
/-! DEFINITION. The release of HOLD (R282), and the debug halt: how it is taken and how it ends (R435, R436, R438). -/

namespace Sys2Proof.Machine

/-- HOLD ends and execution resumes where it stopped; the cycle watchdog restarts with a full budget (R282, R287), DEDUCED: of GRACE where
it has expired already. -/
def State.releaseHold (s : State) (cause : Nat) : State :=
  let s := s.changeMode .run 0 cause
  let s := { s with scn := { s.scn with holdRel := true, wdFrom := s.clk.us, wdExp := s.scn.wdExp.map fun _ => s.clk.us } }
  s.programEnd

/-- Entry to HOLD from RUN (R282): staged force changes are applied with a force transfer (R285), and a SET_MODE to HOLD
is answered. A mark takes effect at once from there on (R307). -/
def State.enterHold (s : State) (cause : Nat) : State :=
  let safe := s.sendsSafe
  let s : State := { s with scn := { s.scn with holdReq := false } }
  let s := (s.changeMode .hold 0 cause).safeFrom safe
  let s := if s.scn.staged.isEmpty then s else s.forceInHold
  (s.finishJob (fun j => j.op == 0x03 && j.args.head? == some 2) (if cause = 0 then rOK else rABORTED)).dropAtTransfer

/-- A HOLD that waits is entered in the program phase, at a boundary that no lock and no delay slot closes, no load
being held (R282). -/
def State.takeHold (s : State) : State :=
  let free := match s.car.running with
    | none => true
    | some n => decide ((s.ctx n).lkc = 0) && decide ((s.ctx n).slot = .none) && s.core.held.isNone
  if s.scn.holdReq && decide (s.scn.mode = .run) && decide (s.scn.phase = .program) && free then s.enterHold 0 else s

/-- The independent watchdog's remaining time in µs (R462). -/
def State.wdtLeft (s : State) : Nat := s.flt.wdtFrom + s.flt.wdtLimit - s.flt.ft

/-- The PC that a HALT packet names: of the context at the halt, 0 for none. -/
def State.haltPc (s : State) (c : Option Nat) : Nat :=
  match c with
  | some n => (s.ctx n).pc.toNat
  | none => 0

/-- The HALT packet: cause 0 request, 1 comparator, 2 step; comparator k (R443). -/
def State.traceHalt (s : State) (cause k : Nat) : State :=
  s.emit 6 (BitVec.ofNat 8 (cause + 4 * k) :: ctxByte s.dbg.ctx :: toBytes (s.haltPc s.dbg.ctx) 3)

/-- The request in progress is of an operation, and waits for its answer. -/
def State.dbgWaits (s : State) (op : Nat) : Bool :=
  s.dbg.resp.isNone && match s.dbg.req with
    | some q => q.op == op
    | none => false

/-- The answer of a HALT or STEP that has waited is stored; its probe asks again. -/
def State.storeDbg (s : State) (op : Nat) : State :=
  if s.dbgWaits op then { s with dbg := { s.dbg with resp := some (0, none) } } else s

/-- A debug halt is taken: the core stops, a block in RUN goes to HOLD, and a grant with WDHOLD holds the independent
watchdog (R435, R436). The store buffer has drained, a loaded value on its way lands (R140), and a HALT that waits is answered. A halt that
ends a step is a part of the halt that the step began in: the mode to return to and the time that the watchdog has left stay, and the
STEP is answered (R437, R438). -/
def State.enterHalt (s : State) (cause k : Nat) : State :=
  let inStep := s.dbg.step.isSome
  let back := if inStep then s.dbg.back else s.scn.mode
  let s := s.landRunning
  let s := { s with
    core := { s.core with halt := .debug }
    dbg := { s.dbg with
      hreq := none, ctx := s.car.running, back := back, step := none, stepDone := false
      wdLeft := if inStep then s.dbg.wdLeft else match s.dbg.grant with
        | some g => if g.wdhold then some s.wdtLeft else none
        | none => none } }
  let s := if s.scn.mode = .run then s.enterHold 1 else s
  ((s.traceHalt cause k).storeDbg 5).storeDbg 7

/-- Move the independent watchdog's start so that a remaining time results. -/
def State.setWdtLeft (s : State) (left : Nat) : State :=
  { s with flt := { s.flt with wdtFrom := s.flt.ft + left - s.flt.wdtLimit } }

/-- A debug halt ends (R438). A pending halt request and a step end with it. -/
def State.endHalt (s : State) : State :=
  if s.core.halt ≠ .debug then { s with dbg := { s.dbg with hreq := none } } else
  let s := match s.dbg.wdLeft with
    | some l => s.setWdtLeft (max l 10000)
    | none => s
  let s := match s.dbg.ctx with
    | some n => s.updCtx n fun c => { c with noMatch := true }
    | none => s
  let back := s.dbg.back
  let s := { s with
    core := { s.core with halt := .none }
    dbg := { s.dbg with hreq := none, ctx := none, back := .none, step := none, stepDone := false, wdLeft := none } }
  let s := (s.emit 7 []).fire 118
  if back = .run ∧ s.scn.mode = .hold then s.releaseHold 1 else s

/-- PD11 leaves RUN: the connection is lost, and a debug halt is released (R445). -/
def State.debugLost (s : State) : State :=
  let s := s.endHalt
  { s with dbg := { grant := s.dbg.grant } }

end Sys2Proof.Machine
end

