-- ==== Sys2Proof/Machine/Stations.lean ====
section
/-! DEFINITION. The configuration of stations (R301 to R303), their substitutes (R307, R314), and Lantern's restoring of
the pages of PD9 and PD7 (R320, R345, R346). -/

namespace Sys2Proof.Machine

/-! ### Configuration blocks (R301, R302) -/

/-- The first 8-byte word at an offset of a block. -/
def dwordAt (bs : List Byte) (i : Nat) : DWord := BitVec.ofNat 64 (ofBytes ((bs.drop i).take 8))

/-- n 8-byte words from an offset of a block. -/
def dwords (bs : List Byte) (i n : Nat) : List DWord := (List.range n).map fun j => dwordAt bs (i + 8 * j)

/-- The fields of a configuration block. -/
def cbKind (b : List Byte) : Nat := byteAt b 0
def cbLink (b : List Byte) : Nat := byteAt b 1
def cbStn (b : List Byte) : Nat := half b 2
def cbWI (b : List Byte) : Nat := byteAt b 4
def cbWQ (b : List Byte) : Nat := byteAt b 5
def cbKey (b : List Byte) : Nat := 32 * cbLink b + cbStn b

/-- Bytes 7 and 16 to 23 are 0, and the bases fit their areas. -/
def cbCommonOk (b : List Byte) : Bool :=
  decide (byteAt b 7 = 0) && decide (ofBytes ((b.drop 16).take 8) = 0)
    && decide (half b 8 + cbWI b ≤ 4096) && decide (half b 10 + cbWQ b ≤ 4096) && decide (half b 12 + cbWI b ≤ 8192)

/-- A configuration block keeps the rules of R301 and R302, overlap apart. -/
def cbOk (b : List Byte) : Bool :=
  match cbKind b with
  | 1 =>
    let w := cbWI b
    decide (b.length = 24 + 40 * w) && decide (cbLink b ≤ 7) && decide (cbStn b ≤ 31) && decide (1 ≤ w)
      && decide (w ≤ 16) && decide (cbWQ b = w) && decide (byteAt b 6 = 0) && cbCommonOk b && decide (1 ≤ half b 14)
      && (List.range w).all fun u =>
        decide (dwordAt b (24 + 8 * w + 8 * u) &&& dwordAt b (24 + 8 * u) = 0)
          && decide (dwordAt b (24 + 16 * w + 8 * u) &&& ~~~ dwordAt b (24 + 8 * u) = 0)
  | 2 =>
    decide (24 ≤ b.length) && decide (b.length = 24 + 16 * cbWI b) && decide (cbLink b = 0) && decide (cbStn b ≤ 511)
      && decide (cbWI b ≤ 16) && decide (cbWQ b ≤ 16) && decide (1 ≤ cbWI b + cbWQ b) && decide (byteAt b 6 ≤ 63)
      && cbCommonOk b
  | 3 => decide (b.length = 4) && decide (cbLink b ≤ 7) && decide (cbStn b ≤ 31)
  | 4 => decide (b.length = 4) && decide (cbLink b = 0) && decide (cbStn b ≤ 511)
  | _ => false

/-- The station that a block of KIND 1 configures. -/
def cbStation (b : List Byte) : Stn :=
  let w := cbWI b
  { w := w, ibase := half b 8, qbase := half b 10, pbase := half b 12, timeout := half b 14
    dir := dwords b 24 w, wben := dwords b (24 + 8 * w) w, safev := dwords b (24 + 16 * w) w
    subst := (b.drop (24 + 24 * w)).take (16 * w), subDue := some false }

/-- The station that a block of KIND 2 configures. -/
def cbHostFed (b : List Byte) : HfStn :=
  { wi := cbWI b, wq := cbWQ b, errctx := byteAt b 6, ibase := half b 8, qbase := half b 10, pbase := half b 12
    timeout := if half b 14 = 0 then 300 else half b 14
    subst := (b.drop 24).take (16 * cbWI b), subDue := some false }

/-- Only the table of stations changes as a block would change it. -/
def State.cfgTable (s : State) (b : List Byte) : State :=
  match cbKind b with
  | 1 => s.setStn (cbKey b) (some (cbStation b))
  | 2 => s.setHf (cbStn b) (some (cbHostFed b))
  | 3 => s.setStn (cbKey b) none
  | _ => s.setHf (cbStn b) none

/-- The stations as they will stand once every staged STATION_CONFIG has been applied (R302). -/
def State.cfgStaged (s : State) : State :=
  s.flk.staged.foldl (fun s x => match x with
    | .station b => s.cfgTable b
    | _ => s) s

/-- Two word ranges overlap. -/
def rangesMeet (a an b bn : Nat) : Bool := decide (a < b + bn) && decide (b < a + an) && decide (0 < an) && decide (0 < bn)

/-- The words of a block overlap those of another station in a table. -/
def State.cbOverlaps (s : State) (b : List Byte) : Bool :=
  let hit (i q wi wq : Nat) : Bool :=
    rangesMeet i wi (half b 8) (cbWI b) || rangesMeet q wq (half b 10) (cbWQ b)
  (s.stations.any fun e => !(cbKind b == 1 && e.1 == cbKey b) && hit e.2.ibase e.2.qbase e.2.w e.2.w)
    || s.hostFed.any fun e => !(cbKind b == 2 && e.1 == cbStn b) && hit e.2.ibase e.2.qbase e.2.wi e.2.wq

/-- Lantern accepts a configuration block (R302). -/
def State.cbAccepted (s : State) (b : List Byte) : Bool :=
  cbOk b && ((cbKind b == 3 || cbKind b == 4) || !s.cfgStaged.cbOverlaps b)

/-! ### Substitutes (R301, R307) -/

/-- The SUBST code of point j. -/
def substCode (sub : List Byte) (j : Nat) : Nat := byteAt sub (j / 4) / 2 ^ (2 * (j % 4)) % 4

/-- Input word k of a station as its substitutes give it, from its last value and its preset word. -/
def substWord (sub : List Byte) (k : Nat) (old pre : DWord) : DWord :=
  BitVec.ofNat 64 ((List.range 64).foldl (fun v b =>
    let x := match substCode sub (64 * k + b) with
      | 0 => bit old b
      | 1 => false
      | 2 => true
      | _ => bit pre b
    v + x.toNat * 2 ^ b) 0)

/-- Write the substitutes of n words; a word whose source cannot be read stays as it is (R258). -/
def State.putSubst (s : State) (sub : List Byte) (ibase pbase : Nat) (n : Nat) : State :=
  (List.range n).foldl (fun s k =>
    let r := s.lanternCheck (shInAddr (ibase + k))
    let q := if (List.range 64).any (fun b => substCode sub (64 * k + b) == 3) then r.2.lanternCheck (imgAddr (8192 + pbase + k))
      else (true, r.2)
    if r.1 && q.1 then
      q.2.put64 (shInAddr (ibase + k)) (substWord sub k (q.2.shIn (ibase + k)) (q.2.img (8192 + pbase + k)))
    else q.2) s

/-- The burst of field-link station k's substitutes with its S word. -/
def State.substBurst (s : State) (k : Nat) : State :=
  match s.stn k with
  | none => s
  | some x => match x.subDue with
    | none => s
    | some b =>
      if !s.inRun 7 then s else
      let s := s.putSubst x.subst x.ibase x.pbase x.w
      (s.setStn k (some { x with subDue := none, dropMark := x.dropMark || b })).writeStn k

/-- The same for host-fed station n. -/
def State.hfSubstBurst (s : State) (n : Nat) : State :=
  match s.hf n with
  | none => s
  | some x => match x.subDue with
    | none => s
    | some b =>
      if !s.inRun 7 then s else
      let s := s.putSubst x.subst x.ibase x.pbase x.wi
      (s.setHf n (some { x with subDue := none, dropMark := x.dropMark || b })).writeHf n

/-- Every burst of substitutes that is due. -/
def State.substBursts (s : State) : State :=
  let s := s.stations.foldl (fun s e => s.substBurst e.1) s
  s.hostFed.foldl (fun s e => s.hfSubstBurst e.1) s

/-! ### Applying a configuration (R303, R460) -/

/-- Clear the classifier's entry of a station. -/
def State.clearFlt (s : State) (c n : Nat) : State := s.setFltEnt c n {}

/-- A host-fed station's error task is not released any more: its configuration ends. -/
def State.dropTask (s : State) (n : Nat) : State :=
  { s with scn := { s.scn with errTasks := Map.set (fun _ => 0) s.scn.errTasks n 0 } }

/-- A configuration block changes its station. -/
def State.changeStation (s : State) (b : List Byte) : State :=
  match cbKind b with
  | 1 =>
    let k := cbKey b
    let s := s.goSafe k
    let due := match s.stn k with
      | some x => x.safeAt
      | none => []
    let s := s.setStn k (some { cbStation b with safeAt := due })
    (((s.clearFlt 13 k).clearFlt 14 k).substBurst k)
  | 2 => (((s.dropTask (cbStn b)).setHf (cbStn b) (some (cbHostFed b))).clearFlt 15 (cbStn b)).hfSubstBurst (cbStn b)
  | 3 =>
    let k := cbKey b
    match s.stn k with
    | none => s
    | some _ =>
      let s := ((s.goSafe k).setStn k none).writeStn k
      { s with flk := { s.flk with quiet := (256 + k) :: s.flk.quiet } }
  | _ =>
    let n := cbStn b
    match s.hf n with
    | none => s
    | some _ =>
      let s := ((s.dropTask n).setHf n none).writeHf n
      { s with flk := { s.flk with quiet := (512 + n) :: s.flk.quiet } }

/-- A configuration block is applied; which bindings are effective is judged anew (R346). -/
def State.applyStation (s : State) (b : List Byte) : State := (s.changeStation b).rebind s.phased

/-! ### Configuration pages and their copy (R320, R345) -/

/-- Set a configuration register, and keep it in the copy in KB. -/
def State.setCfgReg (s : State) (a : Nat) (v : Word) : State :=
  let s := s.setReg a v
  { s with flk := { s.flk with copy := Map.set resetValue s.flk.copy a v } }

/-- The configuration of the pages of PD9 and PD7 and of the member table, with the copy in KB in place of a page whose domain has lost it
(R345). -/
def State.configured (s : State) : State :=
  let s' := s.flk.copy.foldl (fun (q : State) e => if s.serves (pageDomain (pageOf e.1)) then q else q.setReg e.1 e.2) s
  if s.serves 7 then s' else { s' with gov := { s'.gov with tab := s'.flk.tab } }

/-- Lantern rewrites the registers of a page from the copy. -/
def State.restorePage (s : State) (page : Nat) : State :=
  s.flk.copy.foldl (fun s e => if pageOf e.1 = page then s.setReg e.1 e.2 else s) s

/-- A phase source as its enabling leaves it (R323). -/
def Src.started (x : Src) (cfg : Word) : Src := { x.atRest with inc := if bit cfg 2 then 659707 else 549756 }

/-- A write of BEA_SCFGn takes effect; a source that it enables starts anew. -/
def State.setScfg (s : State) (n : Nat) (v : Word) : State :=
  let a := Reg.BEA_SCFG + 0x10 * n
  let was := bit (s.reg a) 0
  let s := s.setReg a v
  if !bit v 0 then s.setSrc n (s.src n).atRest else if was then s else s.setSrc n ((s.src n).started v)

/-- PD9 is ready: Lantern rewrites FLK_LCFG, the station tables and the BEA page (R320, R346). -/
def State.restoreField (s : State) : State :=
  let s := (s.restorePage 0x07).restorePage 0x08
  let s := (List.range 4).foldl (fun s n =>
    if bit (s.reg (Reg.BEA_SCFG + 0x10 * n)) 0 then s.setSrc n ((s.src n).started (s.reg (Reg.BEA_SCFG + 0x10 * n))) else s) s
  if s.scn.phase = .idle then s.substBursts else s

/-- PD7 is ready: Lantern rewrites the GOV page and the member table, and E follows the outputs (R338, R346). -/
def State.restoreGov (s : State) : State :=
  let s := s.restorePage 0x09
  ({ s with gov := { s.gov with tab := s.flk.tab } }).govRestart

end Sys2Proof.Machine
end

