-- ==== Sys2Proof/Machine/Power.lean ====
section
/-! DEFINITION. Power domains (R46 to R52), domain and block resets (R54 to R59), the keeper wake S0 (R63), and the
effects of a lost clock (R44): what any write, command or pin can set off in them. -/

namespace Sys2Proof.Machine

/-! ### The start record's step words (R81, R82) -/

/-- Step word n. -/
def State.stepRec (s : State) (n : Nat) : StepRec := Map.get (fun _ => {}) s.str.steps n

/-- Replace step word n. -/
def State.setStep (s : State) (n : Nat) (r : StepRec) : State :=
  { s with str := { s.str with steps := Map.set (fun _ => {}) s.str.steps n r } }

/-- The duration of the step in progress, saturating. -/
def State.stepTime (s : State) : Nat := min (s.clk.us - s.str.stepFrom) 0xFFFFFF

/-- Lantern runs: the start has passed S3, and the core is not stopped for good. -/
def State.lanternRuns (s : State) : Bool :=
  decide (4 ≤ s.str.step) && !s.str.halt && !s.pwr.por && decide (s.pwr.sleep ≠ .asleep)
    && decide (s.core.halt ≠ .stranded) && decide (s.core.halt ≠ .lockup)

/-- Step n fails with a reason: its COUNT rises, and a record is appended by the hardware for S0 to S3 (R81, R477). -/
def State.stepFails (s : State) (n reason : Nat) : State :=
  let r := s.stepRec n
  let c := satInc r.count 3
  let s := s.setStep n ⟨2, c, reason, s.stepTime⟩
  let s := s.logPut 0x8002 (0x13 + (if n ≤ 3 then 256 else 0))
    [BitVec.ofNat 8 n, BitVec.ofNat 8 reason, BitVec.ofNat 8 c]
  s.classify 17 0

/-- Step n passes. -/
def State.stepPasses (s : State) (n : Nat) : State := s.setStep n ⟨1, 0, 0, s.stepTime⟩

/-- Step n is skipped. -/
def State.stepSkipped (s : State) (n : Nat) : State := s.setStep n { s.stepRec n with outcome := 3 }

/-- A list of numbers with entry i set, the entries before it 0 where there were none: PATCH_ID and PATCH_RES keep the values of
an earlier start until a blob takes their place (R63, R80). -/
def putAt (l : List Nat) (i v : Nat) : List Nat := (l ++ List.replicate (i + 1 - l.length) 0).set i v

/-- The next step begins. -/
def State.beginStep (s : State) (n : Nat) : State := { s with str := { s.str with step := n, stepFrom := s.clk.us } }

/-! ### What a domain's reset does to its unit -/

/-- The banks of a domain as address ranges (R18). -/
def banksOf (n : Nat) : List (Nat × Nat) :=
  match n with
  | 3 => [(0x700000, 0x73FFFF)]
  | 4 => [(0x000000, 0x1FFFFF)]
  | 5 => [(0x200000, 0x3FFFFF)]
  | 6 => [(0x400000, 0x5FFFFF), (0x600000, 0x67FFFF)]
  | 7 => [(0x680000, 0x6BFFFF)]
  | 8 => [(0x6C0000, 0x6FFFFF)]
  | _ => []

/-- The Beat unit starts anew: the strobed image takes SAFEV, the staging is emptied, the sources restart unlocked (R346). -/
def State.fieldSafe (s : State) : State :=
  let s := s.allSafe
  { s with bea := { strobed := s.bea.strobed, frac := s.bea.frac
                    srcs := (s.bea.srcs.map fun e => (e.1, e.2.atRest)).filter fun e => decide (e.2 ≠ {}) } }

/-- The domain's units and registers take their Reset values (R8, R51, R208, R230); banks keep their contents. -/
def State.unitReset (s : State) (n : Nat) : State :=
  let s := if n = 9 then s.fieldSafe else s
  let s := s.resetRegs n
  let s := (banksOf n).foldl (fun s r => s.invalidate r.1 r.2) s
  match n with
  | 1 => { s with core := {}, car := { s.car with
      ctxs := (s.car.ctxs.map fun e => (e.1, { e.2 with fpv := false })).filter fun e => decide (e.2 ≠ {}) } }
  | 2 => { s with car := {}, core := { s.core with fpown := none, pin := false } }
  | 3 => { s with mcs := {}, olc := {}, flk := {}, str := { s.str with digests := [] }, dbg := { s.dbg with grant := none } }
  | 7 => { s with
      scn := { s.scn with
        phase := .idle, runCyc := 0, tstart := 0, holdReq := false, stopReq := false, wdExp := none, warned := false
        gdet := false, stopOut := false, hsafe := false, wdog := 0x000A0096, cycwarn := 0, padMin := 0 }
      gov := {} }
  | 8 => { s with hst := { slots := s.hst.slots, next := s.hst.next } }
  | 9 => { s with flk := { s.flk with links := [], stns := s.flk.stns.map fun e => (e.1, e.2.map Stn.fresh) } }
  | 10 => { s with bcn := { role := s.bcn.role }, chn := {} }
  | 11 => { s with dbg := { grant := s.dbg.grant } }
  | _ => s

/-- Whole 64-bit words of a bank are written 0, with new check bits. -/
def State.clearBytes (s : State) (lo hi : Nat) : State :=
  let s := s.mclear lo hi
  { s with banks := { s.banks with
      ecc := Map.drop (fun w => decide (lo / 8 ≤ w) && decide (w ≤ hi / 8)) s.banks.ecc
      writeback := s.banks.writeback.filter fun w => !(decide (lo / 8 ≤ w) && decide (w ≤ hi / 8)) } }

/-- A wake from OFF clears every bank and store of the domain (R47, R51), errors with them. -/
def State.clearDomain (s : State) (n : Nat) : State :=
  (banksOf n).foldl (fun s r => s.clearBytes r.1 r.2) s

/-! ### Domains a mode needs (R24) -/

/-- The active generation lies in code bank domain n (R352). -/
def State.activePd (s : State) (n : Nat) : Bool :=
  (n == 4 && (s.str.gen == 1 || s.str.gen == 3)) || (n == 5 && (s.str.gen == 2 || s.str.gen == 3))

/-- A field link or Beat source is enabled, or a binding is valid. -/
def State.fieldNeeded (s : State) : Bool :=
  (List.range 8).any (fun n => s.f (Reg.FLK_LCFG + 0x20 * n) 0 0 == 1)
    || (List.range 4).any (fun n => s.f (Reg.BEA_SCFG + 0x10 * n) 0 0 == 1)
    || (List.range 256).any (fun k => s.f (Reg.BEA_BIND + 4 * k) 23 23 == 1)

/-- STANDBY_CONFIG or CHAIN_CONFIG is in force (R372, R403). -/
def State.linkNeeded (s : State) : Bool := s.f Reg.BCN_CFG 0 0 == 1 || s.f Reg.CHN_CFG 8 8 == 1

/-- RUN and HOLD require domain n in RUN (R24). -/
def State.required (s : State) (n : Nat) : Bool :=
  match n with
  | 4 => s.activePd 4
  | 5 => s.activePd 5
  | 9 => s.fieldNeeded
  | 10 => s.linkNeeded
  | 11 => false
  | _ => true

/-- Every domain that RUN and HOLD require is in RUN. -/
def State.domainsReady (s : State) : Bool := (List.range 12).all fun n => !s.required n || s.inRun n

/-- Domain n has left RUN: at once for PD7 or in HOLD, at the end of the cycle otherwise (R24, R55). `need` says whether
it was required as it left. A synchronised standby diverges (R386). -/
def State.leftRun (s : State) (n : Nat) (need : Bool) : State :=
  if s.role = 4 ∧ !s.bcn.taking ∧ n ≤ 10 then s.diverge 6
  else if !need then s
  else if s.scn.mode = .hold ∨ (s.scn.mode = .run ∧ n = 7) then s.stopNow 2
  else if s.scn.mode = .run then { s with scn := { s.scn with domStop := true } }
  else s

/-! ### Power up and down (R47, R48, R55) -/

/-- A record of a completed change of a domain's state, by the hardware while Lantern does not run (R47, R48, R477). -/
def State.logDomain (s : State) (n old new : Nat) : State :=
  s.logPut 0x0005 (0x11 + (if s.lanternRuns then 0 else 256))
    [BitVec.ofNat 8 n, BitVec.ofNat 8 old, BitVec.ofNat 8 new, BitVec.ofNat 8 (s.epoch n)]

/-- Source 109: the domain of a bank reports ready, or leaves RUN (R265). -/
def State.fireBank (s : State) (n : Nat) : State := if (banksOf n).isEmpty then s else s.fire 109

/-- A request of a kind between two domains is void: its reply, if it comes, is stale (R58, R59). -/
def State.voidRequest (s : State) (kind src tgt : Nat) : State :=
  { s with pwr := { s.pwr with voided := s.pwr.voided ++ [⟨kind, src, s.epoch src, tgt, s.epoch tgt⟩] } }

/-- The late reply to a void request arrives: unless both epochs of its tag are current it is discarded and counted
(R58). -/
def State.staleReply (s : State) (kind : Nat) : State :=
  match s.pwr.voided.find? (·.kind == kind) with
  | none => s
  | some t =>
    let s : State := { s with pwr := { s.pwr with voided := s.pwr.voided.erase t } }
    if s.epoch t.src = t.srcEpoch ∧ s.epoch t.tgt = t.tgtEpoch then s else (s.bump Reg.PWR_STALE 15 0).classify 5 0

/-- A code bank's domain resets: the bank and a joined image lose their verification (R354), and a digest under way, a
commit that is pending to it and a copy of the host loader into it are answered ABORTED (R57, R353, R370); the digest's
read is one of Lantern's. A job's first argument is its target. -/
def State.bankLost (s : State) (n : Nat) : State :=
  if n ≠ 4 ∧ n ≠ 5 then s else
  let hit (t : Nat) : Bool := t == n - 3 || t == 3
  let s := { s with olc := { s.olc with
    digA := if n = 4 then [] else s.olc.digA
    digB := if n = 5 then [] else s.olc.digB
    digJ := []
    commit := s.olc.commit.filter fun c => !hit c.target } }
  let test (op : Nat) (j : Job) : Bool := j.op == op && hit (j.args.headD 0)
  let s := if s.hst.jobs.any (test 0x08) then ((s.voidRequest 1 8 n).domainOff).finishJob (test 0x08) rABORTED else s
  let s := if s.hst.jobs.any (test 0x09) then
      ((s.voidRequest 2 3 n).lanternOff (0x200000 * (n - 4))).finishJob (test 0x09) rABORTED else s
  s.finishJob (test 0x0A) rABORTED

/-- The load that a domain has accepted and whose answer the core awaits: of what it waits for in the store buffer nothing is left
(R167, R168); an overlapped load launches again only then. -/
def State.sentLoad (s : State) : Option HeldLoad :=
  s.core.held.filter fun h => !h.aborted && match h.kind with
    | .overlap => false
    | .ns => s.core.sb.isEmpty
    | .uncached => !(s.core.sb.any fun e => regionOf e.pa == regionOf h.pa)

/-- Requests that domain n had accepted are answered ABORTED (R57): the core's load, which faults as soon as the core
takes the answer (`deliverAborted`), and what bankLost names. -/
def State.abortRequests (s : State) (n : Nat) : State :=
  let s := match s.sentLoad with
    | some h => if domainOf h.pa = n then
        let s := s.voidRequest 0 1 n
        { s with core := { s.core with held := some { h with aborted := true } } }
      else s
    | none => s
  s.bankLost n

/-- The requests that domain n itself had outstanding are void as it resets (R59). -/
def State.voidOwn (s : State) (n : Nat) : State :=
  match n with
  | 1 => match s.sentLoad with
    | some h => s.voidRequest 0 1 (domainOf h.pa)
    | none => s
  | 3 => match s.hst.jobs.find? fun j => j.op == 0x09 with
    | some j => s.voidRequest 2 3 (if j.args.headD 0 = 2 then 5 else 4)
    | none => s
  | 8 => match s.hst.jobs.find? fun j => j.op == 0x08 with
    | some j => s.voidRequest 1 8 (3 + j.args.headD 0)
    | none => s
  | _ => s

/-- The frames that PD9 loses as it leaves RUN: DEDUCED, the count that R17 speaks of, and that R293 and R320 apply to PD9, is that of an
access answered DOMAIN_OFF, once for each link with an exchange or a frame that it holds. -/
def State.framesLost (s : State) (n : Nat) : State :=
  if n ≠ 9 then s else
  (List.range 8).foldl (fun (s : State) k => if (s.link k).exch.isSome || (s.link k).held.isSome then s.domainOff else s) s

/-- The gate of domain n closes and its reset asserts (R48, steps 1 to 3). -/
def State.gateCloses (s : State) (n : Nat) (st : DomSt) : State :=
  let was := s.inRun n
  let need := s.required n
  let s := ((s.abortRequests n).voidOwn n).framesLost n
  let s := if n = 11 then s.debugLost else s
  let safe := s.sendsSafe
  let s := ((s.moveDom n st).nextEpoch n).safeFrom safe
  let s := s.unitReset n
  if was then (s.fireBank n).leftRun n need else s

/-- Power domain n down (R48); the rail's acknowledge is awaited. -/
def State.powerDown (s : State) (n : Nat) : State :=
  match (s.dom n).st with
  | .off => s
  | .falling _ => s
  | st => (s.gateCloses n (.falling (if st = .doze then 1 else 0))).setDom n
      { s.dom n with
        st := .falling (if st = .doze then 1 else 0), wake := false, dozeAfter := false, late := false, since := s.clk.us }

/-- Wake domain n from OFF (R47, step 1), or hold the wake while PFAIL_N is 0 (R52). -/
def State.wakeUp (s : State) (n : Nat) : State :=
  let d := s.dom n
  match d.st with
  | .off =>
    if s.pwr.pfail then (s.setDom n { d with wake := true }).setB Reg.PWR_FAULT 13
    else (s.moveDom n .waking).setDom n { d with st := .waking, wake := false, late := false, since := s.clk.us }
  | .falling _ => s.setDom n { d with wake := true }
  | _ => s

/-- Domain n is asked for RUN (0), DOZE (1) or OFF (2), a request that R46 allows. -/
def State.requestDom (s : State) (n tgt : Nat) : State :=
  let d := s.dom n
  match tgt with
  | 0 => match d.st with
    | .doze => s.moveDom n .run
    | .dozing => s.moveDom n .run
    | _ => (s.setDom n { d with dozeAfter := false }).wakeUp n
  | 1 => match d.st with
    | .run => s.moveDom n .dozing
    | .doze => s
    | .dozing => s
    | _ => (s.setDom n { d with dozeAfter := true }).wakeUp n
  | _ => s.powerDown n

/-- A request for a state of domain n that R46 or R24 forbids. -/
def State.forbidden (s : State) (n tgt : Nat) : Bool :=
  let stop := decide (s.scn.mode = .stop)
  let s46 := decide (4 ≤ s.str.step) && decide (s.str.step ≤ 6)
  match tgt with
  | 0 => false
  | 1 => match n with
    | 4 => s.activePd 4 && !stop
    | 5 => s.activePd 5 && !stop
    | 6 => !stop
    | 7 => !stop
    | 9 => !stop && s.required 9
    | 10 => !stop && s.required 10
    | 11 => s46
    | _ => true
  | 2 => match n with
    | 4 => s.activePd 4
    | 5 => s.activePd 5
    | 6 => !stop
    | 7 => !stop
    | 9 => !stop && s.required 9
    | 10 => !stop && s.required 10
    | 11 => s46
    | _ => true
  | _ => true

/-- A domain reset without power-down (R55): the sequence of R48 up to step 3, after which the domain holds reset. -/
def State.domainReset (s : State) (n : Nat) : State :=
  if (s.dom n).st = .run ∨ (s.dom n).st = .doze ∨ (s.dom n).st = .dozing then s.gateCloses n (.reset false) else s

/-! ### Block reset and S0 (R54, R63) -/

/-- The start record as S0 finds or makes it, and counts the start (R63): a new one after POR_N or with a wrong CRC. -/
def Str.wake (r : Str) (cold : Bool) (cause : Nat) : Str :=
  let r := if cold || r.crcBad then { cold := true } else { r with cold := false, restored := false, patchless := false }
  { r with startCount := (r.startCount + 1) % 65536, cause := cause }

/-- S0 clears OUTCOME, REASON and TIME of every step and sets CURSTEP to 0; every other field of the record stays (R63). The
sequence begins anew. -/
def Str.cleared0 (r : Str) (cfg : Word) : Str :=
  { startCount := r.startCount, cause := r.cause, cold := r.cold, restored := r.restored, patchless := r.patchless
    steps := (r.steps.map fun e => (e.1, { count := e.2.count })).filter fun e => decide (e.2.count ≠ 0)
    entered := r.entered, prevMode := r.prevMode, gen := r.gen, patches := r.patches, mapout := r.mapout
    patchIds := r.patchIds, patchRes := r.patchRes, lastRun := r.lastRun
    genDigest := r.genDigest, genLen := r.genLen, cfg := cfg }

/-- A step that a reset by the independent watchdog cut short counts as failed with reason 1 (R63, step 4). -/
def State.watchdogStep (s : State) (n : Nat) : State :=
  let r := s.stepRec n
  let c := satInc r.count 3
  let s := s.setStep n { r with count := c }
  (s.logPut 0x8002 (0x13 + (if n ≤ 3 then 256 else 0)) [BitVec.ofNat 8 n, 1, BitVec.ofNat 8 c]).classify 17 0

/-- S0, the keeper wake (R63): the straps are sampled, the record is kept or written anew, the start is counted, and
the step words are cleared. The S0 that follows POR_N is a cold one, and so is one that finds a wrong CRC. -/
def State.keeperWake (s : State) (por : Bool) : State :=
  let cold := por || s.str.crcBad
  let at0 := if cold then 0 else s.str.step
  let mode := s.scn.mode
  let cause := s.f Reg.PWR_RSTCAUSE 5 0
  let s := { s with clk := { s.clk with us := 0 } }
  let s := s.setReg Reg.PWR_STRAP (BitVec.ofNat 32 (s.pwr.chainId.toNat + s.pwr.pairRole.toNat * 8))
  let s := if cold then { s with regs := Map.drop (· == Reg.STR_CFG) s.regs } else s
  let s := { s with str := s.str.wake cold cause }
  let s := if cold then s.logPut 0x8003 0x113 [BitVec.ofNat 8 cause] else s
  let s := if at0 = 15 then { s with str := { s.str with prevMode := mode.code } } else s
  let s := if mode = .none then s else s.changeMode .none 1 7
  let s := if !cold && decide (cause = 4) && decide (at0 ≤ 9) then s.watchdogStep at0 else s
  let s := { s with str := s.str.cleared0 (s.reg Reg.STR_CFG) }
  (s.stepPasses 0).beginStep 1

/-- A block reset with the cause of the given bit of PWR_RSTCAUSE (R54): PD1 to PD11 are reset, PD0 is kept, and the
start sequence runs from S0. A code bank domain in RUN or DOZE stays as it is until S2, as does one in a domain reset (R65). PD9 stays stopped while FL_CLK is lost (R44). -/
def State.blockReset (s : State) (cause : Nat) : State :=
  let s := s.setReg Reg.PWR_RSTCAUSE (BitVec.ofNat 32 (2 ^ cause))
  let s := (rangeFrom 1 11).foldl (fun s n =>
    let s := (s.voidOwn n).unitReset n
    match (s.dom n).st with
    | .off => s
    | .falling _ => s.setDom n { s.dom n with since := 0 }
    | .reset false => if n = 4 ∨ n = 5 then s else s.setDom n { s.dom n with st := .held }
    | .run => if n = 4 ∨ n = 5 then s else (s.setDom n { s.dom n with st := .held }).nextEpoch n
    | .doze => if n = 4 ∨ n = 5 then s else (s.setDom n { s.dom n with st := .held }).nextEpoch n
    | .dozing => if n = 4 ∨ n = 5 then s else (s.setDom n { s.dom n with st := .held }).nextEpoch n
    | _ => s.setDom n { s.dom n with st := .held }) s
  let s := { s with
    scn := { mode := s.scn.mode, cyc := s.scn.cyc, forced := s.scn.forced }
    gov := {}
    bcn := {}
    pwr := { s.pwr with sleep := .awake, flStopped := s.pwr.flStopped && bit s.clk.lost 2 } }
  s.keeperWake false

/-- A machine check that Lantern answers with a block reset (R251), or any request for one: cause RSTREQ. -/
abbrev causeRstreq : Nat := 3

/-! ### Lost clocks (R44) -/

/-- The clock of a bit position of CLK_LOSS is lost: the bit, the record with its last count, class 7, the cause of
HP_IRQ[3], and the effect of R44. -/
def State.loseClock (s : State) (k : Nat) : State :=
  if bit s.clk.lost k then s else
  let s := { s with clk := { s.clk with lost := setBit s.clk.lost k true } }
  let s := (s.setB Reg.CLK_LOSS k).irq 3
  let s := s.logPut 0x8006 0x112 (BitVec.ofNat 8 k :: 0 :: 0 :: 0 ::
    toBytes (if k = 7 then 0 else (s.reg (Reg.CLK_MEAS + 4 * k)).toNat) 4)
  let s := s.classify 7 0
  match k with
  | 0 => s.blockReset 4
  | 6 => s.blockReset 4
  | 7 => s.mcheck 5 none 0
  | 1 => s.mcheck 6 none 0
  | 2 =>
    let was := s.inRun 9
    let s := State.fieldSafe { s with pwr := { s.pwr with flStopped := true } }
    if was then s.leftRun 9 (s.required 9) else s
  | _ => s

end Sys2Proof.Machine
end

