-- ==== Sys2Proof/Machine/Link.lean ====
section
/-! DEFINITION. The field links: requests, responses and the stations' states (R295 to R312, R318). -/

namespace Sys2Proof.Machine

/-- The outcome of a command: these commands always answer a next state. -/
abbrev LinkOut := Host.Outcome State Fault Refusal

/-! ### Frames (R297 to R299) -/

/-- A header: STN, TYPE, STS, SAFE, SEQ and LEN, DIR and NAK being 0 (R298). -/
def hdrOf (stn typ : Nat) (sts safe : Bool) (seq len : Nat) : Nat :=
  stn + typ * 2 ^ 5 + sts.toNat * 2 ^ 9 + safe.toNat * 2 ^ 10 + seq * 2 ^ 12 + len * 2 ^ 16

/-- A whole frame: SYNC, header, payload, CRC. -/
def frameOf (hdr : Nat) (payload : List DWord) : List Byte :=
  let body := toBytes hdr 4 ++ payload.flatMap fun w => toBytes w.toNat 8
  0x6A :: (body ++ toBytes (crc32 body) 4)

/-! ### Rounds (R304) -/

/-- FLK_LCFG as link n's round has it in force (R321). -/
def State.lcfgNow (s : State) (n : Nat) : Word := (s.link n).cfg.getD (s.reg (lcfg n))

/-- The stations of link n that a round visits, by address. -/
def State.polled (s : State) (n : Nat) : List Nat :=
  (s.stations.filter fun e => e.1 / 32 == n && !decide (e.2.st = .failed)).map fun e => e.1 % 32

/-- The next round of link n begins: FLK_LCFG takes effect (R321). -/
def State.beginRound (s : State) (n : Nat) : State :=
  s.setLink n { s.link n with next := 0, from_ := s.clk.us, cfg := some (s.reg (lcfg n)) }

/-- The round of link n ends with its last exchange: its length is shown, and the next one starts at once unless the link has nothing to
poll (R304, R321). -/
def State.endRound (s : State) (n : Nat) : State :=
  let s := s.setReg (Reg.FLK_LROUND + 0x20 * n) (BitVec.ofNat 32 (min (s.clk.us - (s.link n).from_) 0xFFFFFF))
  if s.linkEnabled n && !(s.polled n).isEmpty then s.beginRound n else s.setLink n { s.link n with next := 0, cfg := none }

/-- The round of link n has no station left to visit. -/
def State.roundDone (s : State) (n : Nat) : Bool := !(s.polled n).any fun a => decide ((s.link n).next ≤ a)

/-- Link n as it stands for its next exchange: a round begins where none is under way, and one whose last stations have left the poll
gives way to the next. -/
def State.roundReady (s : State) (n : Nat) : State :=
  let s := if (s.link n).cfg.isSome && s.roundDone n then s.endRound n else s
  if (s.link n).cfg.isNone then s.beginRound n else s

/-- The station that link n's next exchange visits. -/
def State.visits (s : State) (n : Nat) : Option Nat := (s.polled n).find? fun a => decide ((s.link n).next ≤ a)

/-! ### Strobes to come (R305, R333, R334) -/

/-- The Beat unit works: its domain is in RUN and BEAT_CLK is present (R44, R50). -/
def State.beatRuns (s : State) : Bool := s.inRun 9 && !bit s.clk.lost 3

/-- BEAT cycles until a mains source's phase passes a value. -/
def Src.until (x : Src) (cmp : Nat) : Nat :=
  let d := (cmp * 256 + 2 ^ 40 - x.ph) % 2 ^ 40
  ((if d = 0 then 2 ^ 40 else d) + x.inc - 1) / x.inc

/-- A phased point of a strobe: its binding, where it has a ready value on an up station of the link (R333). -/
def State.strobePoints (s : State) (m link : Nat) : List Bnd :=
  s.phased.filter fun b => b.chan == m && bit s.bea.isReady b.k && (match b.pin with
    | some p => p.key / 32 == link && (match s.stn p.key with | some x => x.isUp | none => false)
    | none => false)

/-- The conditions of R333 hold for channel m on a link. -/
def State.strobeDue (s : State) (m link : Nat) : Bool :=
  let c := s.reg (ccfg m)
  decide (m < 16) && decide (link < 8) && bit c 3 && s.beatRuns && s.locked (fld c 1 0) && bit (s.lcfgNow link) 0
    && !s.sendsSafe && decide (s.scn.mode ≠ .none) && !s.standby
    && (s.strobePoints m link).any fun b => bit s.bea.ready b.k != bit s.bea.strobed b.k

/-- BEAT cycles until channel m matches (R334): of a mains source by its phase, of an encoder source by the interval between its last
two counts and the counts that remain; none for a source that stands. -/
def State.untilMatch (s : State) (m : Nat) : Option Nat :=
  let n := s.f (ccfg m) 1 0
  let x := s.src n
  let cmp := (s.reg (Reg.BEA_CMP + 0x20 * m)).toNat
  if !s.isEncoder n then (if x.inc = 0 then none else some (x.until cmp))
  else
    let cpr := s.f (Reg.BEA_CPR + 0x10 * n) 23 0
    let d := if x.rev then s.phase n + 2 ^ 32 - cmp else cmp + 2 ^ 32 - s.phase n
    let d := if d % 2 ^ 32 = 0 then 2 ^ 32 else d % 2 ^ 32
    if x.interval = 0 ∨ (x.rev ∧ !bit (s.reg (ccfg m)) 4) then none else some (x.interval * ((d * cpr + 2 ^ 32 - 1) / 2 ^ 32))

/-- A bit time of link n in thirds of a ns: 125 at 24 Mbit/s, and twice that at each further RATE (R296). -/
def State.bitTime (s : State) (n : Nat) : Nat := 125 * 2 ^ fld (s.lcfgNow n) 3 1

/-- How long link n is busy with channel m's STROBE frame, the bit before it included (R331, R334), in thirds of a ns. -/
def State.strobeTime (s : State) (m n : Nat) : Nat :=
  (73 + 64 * (1 + ((s.strobePoints m n).length + 3) / 4)) * s.bitTime n

/-- BEAT cycles from now to the start point of channel m's strobe on link n (R334); negative where it has passed. -/
def State.untilStrobe (s : State) (m n : Nat) : Option Int :=
  (s.untilMatch m).map fun r => (r : Int) - ((s.strobeTime m n + 3 * s.f (Reg.BEA_LLAT + 4 * n) 15 0) / 30 : Nat)

/-- An exchange of some bits, begun now, ends before the strobes of link n fall due (R305). -/
def State.endsBeforeStrobes (s : State) (n bits : Nat) : Bool :=
  (List.range 16).all fun m => !s.strobeDue m n || match s.untilStrobe m n with
    | none => true
    | some r => decide ((bits * s.bitTime n : Nat) ≤ 30 * r)

/-- The strobe of a lower channel that is due on link n would overlap channel m's (R335). -/
def State.lowerStrobe (s : State) (m n : Nat) : Bool :=
  match s.untilStrobe m n with
  | none => false
  | some r => (List.range m).any fun k => s.strobeDue k n && match s.untilStrobe k n with
    | none => false
    | some q => decide (0 ≤ q) && decide (30 * q < 30 * r + (s.strobeTime m n : Nat))
      && decide (30 * r < 30 * q + (s.strobeTime k n : Nat))

/-- Link n may begin a request: the block sends frames, the link is enabled and idle, and holds no frame (R62, R272,
R304, R320). -/
def State.mayRequest (s : State) (n : Nat) : Bool :=
  decide (n < 8) && s.inRun 9 && decide (s.scn.mode ≠ .none) && !s.follows && bit (s.lcfgNow n) 0
    && (s.link n).exch.isNone && (s.link n).held.isNone && (s.link n).strobe.isNone

/-- Begin an exchange with the station that the round visits, if its state asks for the type (R304), and the request, the longest
wait and the response, of the bits that `bits` gives, end before the link's next strobe falls due (R305). -/
def State.request (s : State) (n stn : Nat) (ok : Stn → Bool) (bits : Stn → Nat) (go : State → Stn → State) : State :=
  if n < 8 ∧ s.inRun 9 ∧ (s.link n).exch.isNone then
    let s' := s.roundReady n
    if s'.mayRequest n && s'.visits n == some stn then
      match s'.stn (32 * n + stn) with
      | some x => if ok x && s'.endsBeforeStrobes n (bits x + fld (s'.lcfgNow n) 15 8) then go s' x else s
      | none => s
    else s
  else s

/-- Link n sends a request. -/
def State.send (s : State) (n : Nat) (e : Exch) : State :=
  let x := s.link n
  s.setLink n { x with exch := some e, seq := (x.seq + 1) % 16 }

/-- The output word of unit u for a DATA request: phased points take their strobed bits (R330). A word that cannot be
read, as with PD7 out of RUN, has no stated value. -/
def State.outWord (s : State) (k : Nat) (x : Stn) (u : Nat) : Bool × DWord × State :=
  if !s.inRun 7 then (false, Config.freeDWord s.free, s.tickFree) else
  match s.eccRead (shOutAddr (x.qbase + u)) 1 with
  | (false, s) => (false, Config.freeDWord s.free, s.tickFree)
  | (true, s) =>
    let w := s.phased.foldl (fun w b => match b.pin with
      | some p => if p.key = k ∧ p.unit = u then setBit w p.pin (bit s.bea.strobed b.k) else w
      | none => w) (s.shOut (x.qbase + u))
    (true, w, s)

/-- The output words of n units from unit u on, with whether all could be read. -/
def State.outWords (s : State) (k : Nat) (x : Stn) (u : Nat) : Nat → Bool × List DWord × State
  | 0 => (true, [], s)
  | n + 1 =>
    let r := s.outWord k x u
    let q := r.2.2.outWords k x (u + 1) n
    (r.1 && q.1, r.2.1 :: q.2.1, q.2.2)

/-- DATA_REQUEST (R304, R310): outputs of exactly one output transfer; the bank is not read while the engine holds
it. -/
def execDataRequest (link stn : Nat) (s : State) : LinkOut :=
  .next (s.request link stn (fun x => x.isUp && !s.imageHeld)
    (fun x => 144 + 128 * x.w + if x.count = 0 then 64 else 0) fun s x =>
    let k := 32 * link + stn
    let r := s.outWords k x 0 x.w
    let s := r.2.2
    let seq := (s.link link).seq
    let sts := decide (x.count = 0)
    let s := s.setStn k (some { x with count := (x.count + 1) % 16 })
    s.send link ⟨stn, 0, seq, sts, 0, frameOf (hdrOf stn 0 sts (s.sendsSafe || !r.1) seq x.w) r.2.1⟩)

/-- IDENT_REQUEST (R304). -/
def execIdentRequest (link stn : Nat) (s : State) : LinkOut :=
  .next (s.request link stn (fun x => decide (x.st = .down) && !x.ident) (fun _ => 208) fun s _ =>
    let seq := (s.link link).seq
    s.send link ⟨stn, 3, seq, false, 0, frameOf (hdrOf stn 3 false false seq 0) []⟩)

/-- CONFIG_REQUEST for the station's next unit (R299, R304). -/
def execConfigRequest (link stn : Nat) (s : State) : LinkOut :=
  .next (s.request link stn (fun x => decide (x.st = .down) && x.ident) (fun _ => 400) fun s x =>
    let seq := (s.link link).seq
    let u := x.unit
    s.send link ⟨stn, 1, seq, false, u, frameOf (hdrOf stn 1 false false seq 4)
      [x.dir.getD u 0, x.wben.getD u 0, x.safev.getD u 0, BitVec.ofNat 64 (u + x.timeout * 2 ^ 16)]⟩)

/-! ### Responses (R306) -/

/-- What a response frame is: a timeout, a CRC error or a format error, or good. -/
inductive Resp where
  | timeout | crc | format
  | good (hdr : Word) (status : Option DWord) (payload : List DWord)
  deriving DecidableEq, Repr

/-- LEN that R299 requires of a response. -/
def respLen (typ w : Nat) : Nat :=
  match typ with
  | 0 => w
  | 3 => 1
  | _ => 0

/-- Check a response frame of a station with w units against its request (R306). -/
def checkResp (e : Exch) (w : Nat) (bs : List Byte) : Resp :=
  if byteAt bs 0 ≠ 0x6A then .format else
  let h : Word := BitVec.ofNat 32 (word32 bs 1)
  let st := if bit h 9 then 8 else 0
  let n := 5 + st + 8 * fld h 21 16
  let body := (bs.drop 1).take (n - 1)
  if bs.length ≠ n + 4 ∨ crc32 body ≠ word32 bs n then .crc
  else if bit h 8 && decide (fld h 4 0 = e.stn) && decide (fld h 7 5 = e.typ) && decide (fld h 15 12 = e.seq)
      && decide (fld h 21 16 = respLen e.typ w) && decide (fld h 31 22 = 0) then
    .good h (if bit h 9 then some (dwordAt bs 5) else none) (dwords bs (5 + st) (fld h 21 16))
  else .format

/-- A frame error in an exchange with a station (R306, R312, R318). -/
def State.frameError (s : State) (n k : Nat) (x : Stn) (r : Resp) : State :=
  let s := if r = .timeout then s.count (Reg.FLK_LTMO + 0x20 * n) else s
  let s := if r = .crc then s.count (Reg.FLK_LCRC + 0x20 * n) else s
  if !x.isUp then s else
  let s := (s.count (Reg.FLK_LFERR + 0x20 * n)).fire (4 * n)
  let miss := x.miss + 1
  let pend := decide (fld (s.lcfgNow n) 7 4 ≤ miss)
  let s := s.setStn k (some { x with miss := miss, ferr := satInc x.ferr 0xFFFFFF, st := if pend then .pending else x.st })
  let s := if pend && decide (s.scn.mode ≠ .run) then (s.markDown k .down).classify 14 k else s
  s.classify 13 k

/-- The burst of a good DATA response into the shadows (R272, R308, R311); a station that is down by then takes
nothing (R320). DEDUCED: a frame that finds PD7 OFF or in reset is dropped, and the count that R17 speaks of is that of an access
answered DOMAIN_OFF. -/
def State.dataBurst (s : State) (k : Nat) (ins : List DWord) (status : Option DWord) (safe : Bool) : State :=
  match s.stn k with
  | none => s
  | some x =>
    if !x.isUp then s
    else if !s.inRun 7 then
      let s := s.setStn k (some { x with st := .up, miss := 0 })
      if s.serves 7 then s else s.domainOff
    else
      let s := (ins.zipIdx).foldl (fun (s : State) e => s.put64 (shInAddr (x.ibase + e.2)) e.1) s
      let s := if x.live then s else s.count (Reg.FLK_LRET + 0x20 * (k / 32))
      (s.setStn k (some { x with
        st := .up, miss := 0, live := true, safe := safe, status := status.getD x.status
        retMark := x.retMark || !x.live, dropMark := x.dropMark && x.live })).writeStn k

/-- A station of link n refuses its identity or its configuration (R304). -/
def State.configError (s : State) (n k : Nat) (x : Stn) : State :=
  ((s.setStn k (some { x with cfgerr := true, ident := false, unit := 0 })).setB Reg.FLK_ERR n).writeStation k

/-- A good response has its effect. -/
def State.goodResponse (s : State) (n : Nat) (e : Exch) (x : Stn) (h : Word) (status : Option DWord)
    (payload : List DWord) : State :=
  let k := 32 * n + e.stn
  let x' := { x with safe := bit h 10, status := status.getD x.status }
  match e.typ with
  | 0 =>
    if s.imageHeld then s.setLink n { s.link n with held := some (e.stn, payload, status, bit h 10) }
    else s.dataBurst k payload status (bit h 10)
  | 3 =>
    if x.st ≠ .down then s
    else if fld (payload.getD 0 0) 20 16 = x.w then
      (s.setStn k (some { x' with ident := true, unit := 0, cfgerr := false })).writeStation k
    else s.configError n k x'
  | _ =>
    if x.st ≠ .down then s
    else if bit h 11 then s.configError n k x'
    else if e.unit + 1 < x.w then (s.setStn k (some { x' with unit := e.unit + 1, cfgerr := false })).writeStation k
    else
      (s.setStn k (some { x' with st := .up, live := false, count := 0, miss := 0, unit := 0, cfgerr := false })).writeStation k

/-- The exchange of link n ends, with a response or without. -/
def State.respond (s : State) (n : Nat) (check : Exch → Nat → Resp) : State :=
  if 8 ≤ n ∨ !s.inRun 9 then s else
  match (s.link n).exch with
  | none => s
  | some e =>
    let s := s.setLink n { s.link n with exch := none, next := e.stn + 1 }
    let s := match s.stn (32 * n + e.stn) with
      | none => s
      | some x =>
        match check e x.w with
        | .good h st p => s.goodResponse n e x h st p
        | r => s.frameError n (32 * n + e.stn) x r
    if s.roundDone n && (s.link n).cfg.isSome then s.endRound n else s

/-- A frame is a good request (R297, R298): SYNC, a length and a CRC that agree, DIR 0, and no reserved bit or TYPE. -/
def goodRequest (bs : List Byte) : Bool :=
  let h : Word := BitVec.ofNat 32 (word32 bs 1)
  let n := 5 + 8 * fld h 21 16
  decide (byteAt bs 0 = 0x6A) && decide (bs.length = n + 4) && decide (crc32 ((bs.drop 1).take (n - 1)) = word32 bs n)
    && !bit h 8 && decide (fld h 7 5 ≤ 3) && decide (fld h 31 22 = 0)

/-- A frame arrives on link n: a block that follows a primary hears the primary's requests on its enabled links (R389);
else it ends the exchange under way. -/
def State.frameIn (s : State) (n : Nat) (bs : List Byte) : State :=
  if s.follows then
    if n < 8 ∧ s.inRun 9 ∧ bit (s.lcfgNow n) 0 ∧ goodRequest bs then
      { s with bcn := { s.bcn with busSeen := some s.clk.us } }
    else s
  else s.respond n fun e w => checkResp e w bs

/-- DATA_RESPONSE (R306): a whole frame arrives, from SYNC to CRC. -/
def execDataResponse (link : Nat) (bytes : List Byte) (s : State) : LinkOut := .next (s.frameIn link bytes)

/-- IDENT_RESPONSE (R304, R306). -/
def execIdentResponse (link : Nat) (bytes : List Byte) (s : State) : LinkOut := .next (s.frameIn link bytes)

/-- CONFIG_RESPONSE (R304, R306). -/
def execConfigResponse (link : Nat) (bytes : List Byte) (s : State) : LinkOut := .next (s.frameIn link bytes)

/-- RESPONSE_TIMEOUT (R305): no SYNC began within RTO. -/
def execResponseTimeout (link : Nat) (s : State) : LinkOut := .next (s.respond link fun _ _ => .timeout)

/-- The held frame of link n is written once the engine has released the bank (R272). -/
def State.heldBurst (s : State) (n : Nat) : State :=
  if s.imageHeld then s else
  match (s.link n).held with
  | none => s
  | some (stn, ins, status, safe) =>
    (s.setLink n { s.link n with held := none }).dataBurst (32 * n + stn) ins status safe

/-- HELD_FRAME_BURST (R272). -/
def execHeldFrameBurst (link : Nat) (s : State) : LinkOut := .next (s.heldBurst link)

end Sys2Proof.Machine
end

