-- ==== Sys2Proof/Machine/Beat.lean ====
section
/-! DEFINITION. The Beat unit's commands: edges and counts (R323 to R325), matches and captures (R327, R328), strobes
(R331 to R335), and the governor's two time-driven happenings (R338, R342). -/

namespace Sys2Proof.Machine

/-! ### Mains sources (R323, R324) -/

/-- The source loses lock: BEA_STAT.LOSS, class 16. -/
def State.loseLock (s : State) (n : Nat) : State :=
  let x := s.src n
  let s := s.setSrc n { x with lock := false, good := 0, clamped := 0, wraps := 0 }
  if x.lock then (s.setB Reg.BEA_STAT (8 + n)).classify 16 0 else s

/-- INC after an error, before it is clamped. -/
def incStep (inc : Nat) (e : Int) : Int := inc - e.shiftRight 15

/-- INC within 45 Hz to 65 Hz. -/
def clampInc (v : Int) : Nat := (min (max v 494780) 714683).toNat

/-- A source after an accepted edge with phase error e. -/
def Src.accept (x : Src) (e : Int) : Src :=
  let v := incStep x.inc e
  let p := ((x.ph / 256 : Nat) : Int) - e.shiftRight 2
  let hit := decide (v < 494780) || decide (714683 < v)
  { x with
    ph := (p % 2 ^ 32).toNat * 256 + x.ph % 256
    inc := clampInc v
    good := if e.natAbs ≤ 2 ^ 22 then x.good + 1 else 0
    clamped := if hit then x.clamped + 1 else 0
    wraps := 0 }

/-- The channels that watch source n may match again. -/
def State.clearDone (s : State) (n : Nat) : State :=
  { s with bea := { s.bea with
      done := (List.range 16).foldl (fun d m => if s.f (ccfg m) 1 0 = n then setBit d m false else d) s.bea.done } }

/-- A rising edge of BT_A at a mains source. -/
def State.mainsEdge (s : State) (n : Nat) : State :=
  let x := s.src n
  let soff := (s.reg (Reg.BEA_SOFF + 0x10 * n)).toNat
  if x.first then s.setSrc n { x with ph := soff * 256 + x.ph % 256, first := false, wraps := 0 } else
  let e : Int := (BitVec.ofNat 32 (x.ph / 256) - BitVec.ofNat 32 soff).toInt
  if 2 ^ 30 ≤ e.natAbs then s.count Reg.BEA_EDGREJ else
  let y := x.accept e
  let s := if e < 0 then (s.setSrc n { y with prev := x.ph / 256 }).clearDone n else s.setSrc n { y with prev := y.ph / 256 }
  let y := s.src n
  if 2 ^ 26 < e.natAbs ∨ 8 ≤ y.clamped then s.loseLock n
  else if 8 ≤ y.good then s.setSrc n { y with lock := true }
  else s

/-- MAINS_EDGE: a rising edge of BT_A[n], `cycles` BEAT cycles after the last moment known to the model. -/
def execMainsEdge (n cycles : Nat) (s : State) : LinkOut :=
  .next (if n < 4 ∧ s.mainsRuns n then (s.beatAdvance cycles).mainsEdge n else s)

/-- MISSING_EDGE_LOCK_LOSS: the phase wraps for the second time without an accepted edge. -/
def execMissingEdgeLockLoss (n : Nat) (s : State) : LinkOut :=
  .next (if n < 4 ∧ s.mainsRuns n ∧ (s.src n).lock then
      let x := s.src n
      let left := (2 - x.wraps) * 2 ^ 40 - x.ph
      let s := if 2 ≤ x.wraps ∨ x.inc = 0 then s else s.beatAdvance ((left + x.inc - 1) / x.inc)
      s.loseLock n
    else s)

/-! ### Encoder sources (R325) -/

/-- A leads B in a transition of one of them: 00, 10, 11, 01, 00. -/
def aLeads (a b a' b' : Bool) : Bool :=
  (!a && !b && a' && !b') || (a && !b && a' && b') || (a && b && !a' && b') || (!a && b && !a' && !b')

/-- A phase lies in the cyclic interval from p (left out) to q. -/
def inStep (p q x : Nat) : Bool :=
  decide ((x + 2 ^ 32 - p) % 2 ^ 32 ≠ 0) && decide ((x + 2 ^ 32 - p) % 2 ^ 32 ≤ (q + 2 ^ 32 - p) % 2 ^ 32)

/-- The last move of channel m's encoder source has crossed BEA_CMPm, forward or, with BOTH, in reverse (R327). -/
def State.crossed (s : State) (m : Nat) (rev : Bool) : Bool :=
  let n := s.f (ccfg m) 1 0
  let x := s.src n
  let cmp := (s.reg (Reg.BEA_CMP + 0x20 * m)).toNat
  if rev then bit (s.reg (ccfg m)) 4 && x.rev && inStep (2 ^ 32 - 1 - x.prev) (2 ^ 32 - 1 - s.phase n) (2 ^ 32 - 1 - cmp)
  else !x.rev && inStep x.prev (s.phase n) cmp

/-- What the start point of channel m's strobe on a link has brought. -/
def State.startPt (s : State) (m l : Nat) : Option StartPt :=
  (s.bea.starts.find? fun e => e.1 == m && e.2.1 == l).map (·.2.2)

/-- Set it, or forget it. -/
def State.setStartPt (s : State) (m l : Nat) (x : Option StartPt) : State :=
  { s with bea := { s.bea with starts := (s.bea.starts.filter fun e => !(e.1 == m && e.2.1 == l)) ++
      match x with
      | some x => [(m, l, x)]
      | none => [] } }

/-- The start point of channel m's strobe on link l is reached: nothing is due; or the link still transmits, or the frame would overlap a
lower channel's, and the strobe is late; or it may start (R333 to R335). -/
def State.judgeStart (s : State) (m l : Nat) : StartPt :=
  if !s.strobeDue m l then .done
  else if (s.link l).exch.isSome || (s.link l).strobe.isSome || s.lowerStrobe m l
      || (List.range m).any (fun k => s.startPt k l == some .may) then .late
  else .may

/-- An encoder source has moved: R of a channel that watches it changes at its counts only, so that the start point of a strobe is reached
in this instant where R now allows it or the phase has come to CMP (R334). -/
def State.reachStarts (s : State) (n : Nat) : State :=
  let s := { s with bea := { s.bea with starts := s.bea.starts.filter fun e => e.2.2 != .after || s.f (ccfg e.1) 1 0 != n } }
  (List.range 16).foldl (fun s m => if s.f (ccfg m) 1 0 ≠ n then s else
    (List.range 8).foldl (fun (s : State) l =>
      if (s.startPt m l).isNone && (s.crossed m false || s.crossed m true || (s.untilStrobe m l).any fun r => decide (r ≤ 0)) then
        s.setStartPt m l (some (s.judgeStart m l))
      else s) s) s

/-- A transition counts up or down. The BEAT cycles since the count before it, which no command tells, are a free value of at least those
that the model's clock tells. -/
def State.countEdge (s : State) (n : Nat) (a b : Bool) : State :=
  let x := s.src n
  let cpr := s.f (Reg.BEA_CPR + 0x10 * n) 23 0
  let up := aLeads x.a x.b a b != bit (s.reg (scfg n)) 4
  let now := 100 * s.clk.us + s.bea.frac
  (((s.setSrc n { x with
    a := a, b := b, prev := s.phase n, rev := !up
    cnt := if up then (x.cnt + 1) % cpr else (x.cnt + cpr - 1) % cpr
    interval := match x.last with
      | some t => min (now - t + Config.encoderGrain s.free) 0xFFFFFF
      | none => 0
    last := some now }).tickFree).clearDone n).reachStarts n

/-- ENCODER_TRANSITION: BT_A[n] and BT_B[n] are now seen at these levels. -/
def execEncoderTransition (n : Nat) (a b : Bool) (s : State) : LinkOut :=
  .next (if 4 ≤ n then s
    else if s.beatRuns ∧ s.srcOn n ∧ s.isEncoder n then
      let x := s.src n
      if x.a = a ∧ x.b = b then s
      else if x.a ≠ a ∧ x.b ≠ b then
        (s.setSrc n { x with a := a, b := b, lock := false }).setB Reg.BEA_STAT (4 + n)
      else s.countEdge n a b
    else s.setSrc n { s.src n with a := a, b := b })

/-- INDEX_EDGE: a rising edge of BT_Z[n] with ZEN 1. DEDUCED: the phase that it moves to 0 has moved in the direction of the last count, and
may match on the way (R327). -/
def execIndexEdge (n : Nat) (s : State) : LinkOut :=
  .next (if n < 4 ∧ s.beatRuns ∧ s.srcOn n ∧ s.isEncoder n ∧ bit (s.reg (scfg n)) 3 then
      (State.clearDone (s.setSrc n { s.src n with cnt := 0, lock := true, prev := s.phase n }) n).reachStarts n else s)

/-! ### Matches (R327, R328) -/

/-- The capture of channel m at a match (R328). -/
def State.capture (s : State) (m : Nat) (rev : Bool) : State :=
  let c := s.reg (ccfg m)
  let src := fld c 1 0
  let cap := fld c 6 5
  let merged := (Map.get (fun _ => none) s.bea.caps m).isSome
  { s with bea := { s.bea with caps := Map.set (fun _ => none) s.bea.caps m (some
      ⟨s.phase cap, s.clk.us % 2 ^ 32, s.locked src, s.locked cap, rev, merged, s.freq src⟩) } }

/-- A strobe of channel m on link l of a mains source was due at its start point, and has not started (R333, R335): some point's ready value
has differed from its strobed value since then. -/
def State.mainsLate (s : State) (m l : Nat) : Bool :=
  let lead := (s.strobeTime m l + 3 * s.f (Reg.BEA_LLAT + 4 * l) 15 0) / 30
  s.strobeDue m l && (s.strobePoints m l).any fun b => match Map.get (fun _ => none) s.bea.since b.k with
    | some t => decide (100 * t + lead ≤ 100 * s.clk.us + s.bea.frac)
    | none => false

/-- The match ends the way of channel m's strobe on link l; one that has been late is counted (R335). -/
def State.matchStrobe (s : State) (m : Nat) (l : Nat) : State :=
  match s.startPt m l with
  | some .may => s.setStartPt m l (some .after)
  | some .after => s
  | some .late => (s.setStartPt m l none).count Reg.BEA_LATE
  | some .done => s.setStartPt m l none
  | none => if !s.isEncoder (s.f (ccfg m) 1 0) && s.mainsLate m l then s.count Reg.BEA_LATE else s

/-- A channel has matched: capture and source, and the strobes that were due and did not start (R327, R335). DESIGN CHOICE: what else R333
asks of a mains source's strobe is taken as it stands at the match. -/
def State.matched (s : State) (m : Nat) (rev : Bool) : State :=
  let c := s.reg (ccfg m)
  let s := if bit c 3 then (List.range 8).foldl (fun s l => s.matchStrobe m l) s else s
  if bit c 2 then (if s.takesEvents && !s.follows then s.capture m rev else s).fire (32 + m) else s

/-- COMPARE_MATCH: the phase of channel m's source passes BEA_CMPm; time moves on to that moment for a mains source, unless its last
correction has just moved the phase across it, and an encoder source has just counted across it. DESIGN CHOICE: a correction
that moves the phase back, and the jump to SOFF at the first edge, match nothing; R327 speaks of a move from p to p'. -/
def execCompareMatch (m : Nat) (rev : Bool) (s : State) : LinkOut :=
  .next (if 16 ≤ m ∨ !s.beatRuns then s else
    let n := s.f (ccfg m) 1 0
    let cmp := (s.reg (Reg.BEA_CMP + 0x20 * m)).toNat
    if !s.srcOn n then s
    else if s.isEncoder n then
      if s.crossed m rev && !bit s.bea.done m then
        ({ s with bea := { s.bea with done := setBit s.bea.done m true } }).matched m rev
      else s
    else if rev || (s.src n).inc == 0 then s
    else if inStep (s.src n).prev (s.phase n) cmp && !bit s.bea.done m then
      ({ s with bea := { s.bea with done := setBit s.bea.done m true } }).matched m false
    else (s.beatAdvance ((s.src n).until cmp)).matched m false)

/-! ### Strobes (R331 to R335) -/

/-- A STROBE frame (R331). -/
def strobeFrame (m : Nat) (ps : List (Bnd × Bool)) : List Byte :=
  let entries := ps.map fun e => match e.1.pin with
    | some p => p.key % 32 + p.unit * 2 ^ 5 + p.pin * 2 ^ 9 + e.2.toNat * 2 ^ 15
    | none => 0
  let len := 1 + (ps.length + 3) / 4
  let bytes := entries.flatMap fun x => toBytes x 2
  let body := toBytes (ps.length + m * 256) 8 ++ bytes ++ List.replicate (8 * (len - 1) - bytes.length) 0
  let hdr := toBytes (hdrOf 0 2 false false 0 len) 4
  0x6A :: (hdr ++ body ++ toBytes (crc32 (hdr ++ body)) 4)

/-- STROBE_START: the link is idle at the strobe's start point, to which time moves on for a mains source, and the frame leaves with
the ready values (R334). One that is late, or that overlaps a lower channel's, does not start (R335). -/
def execStrobeStart (m link : Nat) (s : State) : LinkOut :=
  let enc := s.isEncoder (s.f (ccfg m) 1 0)
  let may := if enc then s.startPt m link == some .may || s.startPt m link == some .after
    else (s.startPt m link).isNone && !s.lowerStrobe m link && (s.untilStrobe m link).any fun r => decide (0 ≤ r)
  .next (if s.strobeDue m link ∧ (s.link link).exch = none ∧ (s.link link).strobe = none ∧ may then
      let s := if enc then s else s.beatAdvance ((s.untilStrobe m link).getD 0).toNat
      let ps := (s.strobePoints m link).map fun b => (b, bit s.bea.ready b.k)
      let s := s.setLink link { s.link link with
        strobe := some (m, ps.map (fun e => (e.1.k, e.2)), strobeFrame m ps) }
      s.setStartPt m link (if s.startPt m link = some .after then none else some .done)
    else s)

/-- The governor members of a phased point that is now off become de-energised (R338). -/
def State.phasedOff (s : State) (k t : Nat) : State :=
  (s.members.filter fun x => x.bnd == some k).foldl (fun s x =>
    if s.energised x.i then s.deEnergise x.i t else s) s

/-- STROBE_END: the frame's last bit has left (R333, R338). A value 0 that it carried for a point that was off, and whose switch-on has been
admitted while it left, carries no switch-off. -/
def execStrobeEnd (m link : Nat) (s : State) : LinkOut :=
  .next (match (s.link link).strobe with
    | none => s
    | some (ch, vals, _) =>
      if ch ≠ m ∨ !s.inRun 9 then s else
      let s := s.setLink link { s.link link with strobe := none }
      (vals.foldl (fun s e =>
        let off := !e.2 && (bit s.bea.strobed e.1 || !bit s.bea.ready e.1)
        let s := s.setStrobed e.1 e.2
        if off then s.phasedOff e.1 s.clk.us else s) s).resince)

/-- STROBE_FALLBACK: the point of binding k has waited STRTO ms (R335). -/
def execStrobeFallback (k : Nat) (s : State) : LinkOut :=
  .next (if s.standby ∨ !s.inRun 9 then s else
    match s.phased.find? (fun b => b.k == k), Map.get (fun _ => none) s.bea.since k with
    | some b, some t =>
      let c := s.reg (ccfg b.chan)
      let v := bit s.bea.ready k
      if v && !bit c 7 then s else
      let s := s.carry (t + 1000 * fld c 31 16)
      let s := ((s.setStrobed k v).count Reg.BEA_FBCNT).resince
      if v then s else s.phasedOff k s.clk.us
    | _, _ => s)

/-! ### The governor's time-driven happenings -/

/-- MEMBER_SAFE_TIMEOUT: TIMEOUT has passed since the station was marked down or its link began to send SAFE 1
(R338). -/
def execMemberSafeTimeout (link stn : Nat) (s : State) : LinkOut :=
  .next (let k := 32 * link + stn
    match s.stn k with
    | none => s
    | some x => match x.safeAt with
      | [] => s
      | t :: rest =>
        let s := (s.carry t).setStn k (some { x with safeAt := rest })
        if s.follows ∨ 8 ≤ link ∨ 32 ≤ stn then s else
        (s.members.filter fun m => m.pin.key == k).foldl (fun s m =>
          if s.energised m.i then s.deEnergise m.i t else s) s)

/-- IDLE_SAG_CHECK: in STOP or HOLD the governor runs pass 1 every 1 ms (R342). -/
def execIdleSagCheck (s : State) : LinkOut :=
  .next (if (s.scn.mode = .stop ∨ s.scn.mode = .hold) ∧ s.govOn ∧ s.inRun 7 ∧ !s.follows then
      s.pass1 s.members s.clk.us else s)

end Sys2Proof.Machine
end

