-- ==== Sys2Proof/Machine/Flags.lean ====
section
/-! DEFINITION. The flags (R111), the integer results at their edges (R112 to R114), rounding (R116), the accumulator
(R115) and the extractions (R118), as functions of the operands and the status word. -/

namespace Sys2Proof.Machine

/-! ### Flags -/

/-- Z and N of a result. -/
def setZN (sw r : Word) : Word := setBit (setBit sw swZ (decide (r = 0))) swN (bit r 31)

/-- C, Z, N and V; Z and N of the result. -/
def setCZNV (sw : Word) (c : Bool) (r : Word) (v : Bool) : Word :=
  setBit (setBit (setZN sw r) swC c) swV v

/-- A sticky flag is set, never cleared (R111). -/
def stick (sw : Word) (i : Nat) (b : Bool) : Word := if b then setBit sw i true else sw

/-- The exact sum a + b + cin as integers fits in 32 bits signed. -/
def fitsS32 (x : Int) : Bool := decide (-2147483648 ≤ x) && decide (x ≤ 2147483647)

/-- A value clamped to the 32-bit signed range. -/
def clamp32 (x : Int) : Word :=
  if 2147483647 < x then 0x7FFFFFFF else if x < -2147483648 then 0x80000000 else BitVec.ofInt 32 x

/-- a + b + cin, with the flags of an add (R111). -/
def addFlags (sw a b : Word) (cin : Bool) : Word × Word :=
  let r := a + b + BitVec.ofNat 32 cin.toNat
  (r, setCZNV sw (decide (2 ^ 32 ≤ a.toNat + b.toNat + cin.toNat)) r (!fitsS32 (a.toInt + b.toInt + cin.toNat)))

/-- a − b − NOT cin, with the flags of a subtract: C 1 means no borrow (R94, R111). -/
def subFlags (sw a b : Word) (cin : Bool) : Word × Word :=
  let bw := (!cin).toNat
  let r := a - b - BitVec.ofNat 32 bw
  (r, setCZNV sw (decide (b.toNat + bw ≤ a.toNat)) r (!fitsS32 (a.toInt - b.toInt - bw)))

/-- A saturating result: C as the wrapping form, Z and N of the clamped result, V 0, S 1 if clamped. -/
def satFlags (sw : Word) (c : Bool) (exact : Int) : Word × Word :=
  let r := clamp32 exact
  (r, stick (setCZNV sw c r false) swS (!fitsS32 exact))

def addsFlags (sw a b : Word) : Word × Word :=
  satFlags sw (decide (2 ^ 32 ≤ a.toNat + b.toNat)) (a.toInt + b.toInt)

def subsFlags (sw a b : Word) : Word × Word :=
  satFlags sw (decide (b.toNat ≤ a.toNat)) (a.toInt - b.toInt)

/-- The class of logical operations: Z and N only. -/
def logicFlags (sw r : Word) : Word × Word := (r, setZN sw r)

/-- Integer multiply: Z, N of the word pushed, V 1 when the product does not fit. -/
def mulFlags (sw r : Word) (v : Bool) : Word × Word := (r, setBit (setZN sw r) swV v)

/-! ### Shifts (R113) and rotation (R137) -/

/-- Shifted words and the last bit shifted out, for counts from 1 on (R113). -/
def shlRes (a : Word) (n : Nat) : Word × Bool :=
  if n ≤ 32 then (a <<< n, bit a (32 - n)) else (0, false)
def shrRes (a : Word) (n : Nat) : Word × Bool :=
  if n ≤ 32 then (a >>> n, bit a (n - 1)) else (0, false)
def sarRes (a : Word) (n : Nat) : Word × Bool :=
  if n ≤ 32 then (a.sshiftRight n, bit a (n - 1)) else (a.sshiftRight 32, bit a 31)

/-- A shift by a full 32-bit count; a KX4 context takes the count modulo 32 (R159). -/
def shiftFlags (sw a : Word) (cnt : Nat) (k4 : Bool) (f : Word → Nat → Word × Bool) : Word × Word :=
  let n := if k4 then cnt % 32 else cnt
  if n = 0 then (a, setZN sw a)
  else
    let (r, c) := f a n
    (r, setBit (setZN sw r) swC c)

/-- ROR: C is result[31] when the count modulo 32 is not 0. -/
def rorFlags (sw a : Word) (cnt : Nat) : Word × Word :=
  let n := cnt % 32
  let r := a.rotateRight n
  (r, if n = 0 then setZN sw r else setBit (setZN sw r) swC (bit r 31))

/-! ### Division (R114) -/

/-- Which of the five divisions. -/
inductive DivOp where
  | div | divs | divu | rem | remu
  deriving DecidableEq, Repr

/-- The divide or remainder result with its flags; a zero divisor that does not fault gives the results of R114. -/
def divFlags (op : DivOp) (sw a b : Word) : Word × Word :=
  let out (r : Word) (v : Bool) : Word × Word := (r, setBit (setZN sw r) swV v)
  let ovf := a = 0x80000000 ∧ b = 0xFFFFFFFF
  match op with
  | .div =>
    if b = 0 then out (if a.toInt < 0 then 0x80000000 else 0x7FFFFFFF) true
    else if ovf then out 0x80000000 true
    else out (BitVec.ofInt 32 (Int.tdiv a.toInt b.toInt)) false
  | .divs =>
    if b = 0 then out (if a.toInt < 0 then 0x80000000 else 0x7FFFFFFF) true
    else if ovf then
      let (r, sw') := out 0x7FFFFFFF false
      (r, setBit sw' swS true)
    else out (BitVec.ofInt 32 (Int.tdiv a.toInt b.toInt)) false
  | .divu => if b = 0 then out 0xFFFFFFFF true else out (BitVec.ofNat 32 (a.toNat / b.toNat)) false
  | .rem =>
    if b = 0 then out a true
    else if ovf then out 0 true
    else out (BitVec.ofInt 32 (Int.tmod a.toInt b.toInt)) false
  | .remu => if b = 0 then out a true else out (BitVec.ofNat 32 (a.toNat % b.toNat)) false

/-! ### Rounding (R116) -/

/-- x / 2^k rounded by RM to an integer: 0 toward −∞, 1 half up, 2 half to even, 3 toward zero. -/
def roundShift (rm : Nat) (x : Int) (k : Nat) : Int :=
  let d : Int := 2 ^ k
  let q := Int.fdiv x d
  let f := Int.fmod x d
  let up : Bool := match rm with
    | 0 => false
    | 1 => decide (d ≤ 2 * f)
    | 2 => decide (d < 2 * f) || (decide (d = 2 * f) && decide (Int.fmod q 2 = 1))
    | _ => decide (x < 0) && decide (0 < f)
  if k = 0 then x else if up then q + 1 else q

/-- SW.RM. -/
def rmOf (sw : Word) : Nat := fld sw 7 6

/-- The exact Q1.31 product of two words, rounded to 31 fraction bits (R115). -/
def q31Product (sw a b : Word) : Int := roundShift (rmOf sw) (a.toInt * b.toInt) 31

/-- QMUL: the rounded product clamped to Q1.31; Z, N of the result, S if clamped. -/
def qmulFlags (sw a b : Word) : Word × Word :=
  let p := q31Product sw a b
  let r := clamp32 p
  (r, stick (setZN sw r) swS (!fitsS32 p))

/-! ### The accumulator (R115) -/

/-- An exact value fits in 40 bits. -/
def fitsA (x : Int) : Bool := decide (-2 ^ 39 ≤ x) && decide (x < 2 ^ 39)

/-- A wraps modulo 2^40 and sets G on overflow. -/
def accWrap (sw : Word) (x : Int) : BitVec 40 × Word := (BitVec.ofInt 40 x, stick sw swG (!fitsA x))

/-- A clamps on overflow and sets G and S. -/
def accClamp (sw : Word) (x : Int) : BitVec 40 × Word :=
  let a : BitVec 40 := if fitsA x then BitVec.ofInt 40 x else if x < 0 then 0x8000000000 else 0x7FFFFFFFFF
  (a, stick (stick sw swG (!fitsA x)) swS (!fitsA x))

/-- A's bits [39:31] are all equal: A lies in the Q1.31 range (R118). -/
def inQ31 (a : BitVec 40) : Bool := fitsS32 a.toInt

/-- EXTQ, EXTQS and EXTI (R118). -/
def extqFlags (sw : Word) (a : BitVec 40) : Word × Word :=
  let r := a.setWidth 32
  (r, setBit (setZN sw r) swV (!inQ31 a))
def extqsFlags (sw : Word) (a : BitVec 40) : Word × Word :=
  let r : Word := if inQ31 a then a.setWidth 32 else if a.toInt < 0 then 0x80000000 else 0x7FFFFFFF
  (r, stick (setBit (setZN sw r) swV false) swS (!inQ31 a))
def extiFlags (sw : Word) (a : BitVec 40) : Word × Word :=
  let r := BitVec.ofInt 32 (roundShift (rmOf sw) a.toInt 31)
  (r, setBit (setZN sw r) swV false)

/-! ### Conditions (R128) -/

/-- A condition code holds on SW and LA. -/
def condHolds (code : Nat) (sw : Word) (la : Bool) : Bool :=
  let c := bit sw swC
  let z := bit sw swZ
  let n := bit sw swN
  let v := bit sw swV
  match code with
  | 0 => z
  | 1 => !z
  | 2 => c
  | 3 => !c
  | 4 => n
  | 5 => !n
  | 6 => v
  | 7 => !v
  | 8 => c && !z
  | 9 => !c || z
  | 10 => n == v
  | 11 => n != v
  | 12 => !z && (n == v)
  | 13 => z || (n != v)
  | 14 => la
  | _ => true

/-! ### Writes of SW (R95) -/

/-- Bits an SW write changes: C, Z, N, V, S, G, RM, GM, PRV and DET. -/
def swWriteMask : Word := 0xBFF &&& ~~~0x400

/-- An SW write by SETSW would change GM, PRV or DET without PRV: vector 13 (R95). The DET bit of a KX4 context never
counts as a change. -/
def swWriteDenied (k4 : Bool) (sw x : Word) : Bool :=
  !bit sw swPRV && (bit sw swGM != bit x swGM || bit x swPRV || (!k4 && bit sw swDET != bit x swDET))

/-- The SW that SETSW leaves: no write sets PRV, and DET of a KX4 context stays 1 (R95). -/
def swWritten (k4 : Bool) (sw x : Word) : Word :=
  let r := (sw &&& ~~~swWriteMask) ||| (x &&& swWriteMask)
  let r := setBit r swPRV (bit sw swPRV && bit x swPRV)
  if k4 then setBit r swDET true else r

/-- The SW that RETI leaves: GM from the frame; PRV from the frame, not above the grant; DET from the frame only with
PRV; the rest as an SW write (R95). -/
def swReturned (k4 grant : Bool) (sw x : Word) : Word :=
  let r := (sw &&& ~~~swWriteMask) ||| (x &&& swWriteMask)
  let r := setBit r swPRV (bit x swPRV && grant)
  let r := setBit r swDET (if bit sw swPRV then bit x swDET else bit sw swDET)
  if k4 then setBit r swDET true else r

end Sys2Proof.Machine
end

