-- ==== Sys2Proof/Machine/Float.lean ====
section
/-! DEFINITION. The subset of IEEE 754 binary32 that the floating-point unit gives (R119 to R123): exact results rounded
to nearest, ties to even; subnormals exact; tininess after rounding; one quiet NaN. -/

namespace Sys2Proof.Machine

/-- The sticky exception flags of FPSW: IV, DZ, OF, UF, NX (R120). -/
abbrev fIV : BitVec 5 := 1
abbrev fDZ : BitVec 5 := 2
abbrev fOF : BitVec 5 := 4
abbrev fUF : BitVec 5 := 8
abbrev fNX : BitVec 5 := 16

/-- The one NaN that operations return (R120). -/
abbrev qNaN : Word := 0x7FC00000

/-- What a pattern stands for: a NaN (signalling or not), an infinity, or (−1)^neg × m × 2^e. -/
inductive FVal where
  | nan (signalling : Bool)
  | inf (neg : Bool)
  | fin (neg : Bool) (m : Nat) (e : Int)
  deriving DecidableEq, Repr

/-- Read a binary32 pattern. -/
def fval (w : Word) : FVal :=
  let neg := bit w 31
  let x := fld w 30 23
  let f := fld w 22 0
  if x = 255 then (if f = 0 then .inf neg else .nan (!bit w 22))
  else if x = 0 then .fin neg f (-149)
  else .fin neg (f + 2 ^ 23) ((x : Int) - 150)

/-- The pattern of a signed zero and of a signed infinity. -/
def fzero (neg : Bool) : Word := if neg then 0x80000000 else 0
def finf (neg : Bool) : Word := if neg then 0xFF800000 else 0x7F800000

/-- m × 2^−k rounded to nearest even, and whether it was inexact. -/
def roundEven (m k : Nat) : Nat × Bool :=
  let q := m >>> k
  let r := m % 2 ^ k
  if k = 0 then (m, false)
  else if 2 ^ (k - 1) < r ∨ (r = 2 ^ (k - 1) ∧ q % 2 = 1) then (q + 1, r ≠ 0)
  else (q, r ≠ 0)

/-- Round (−1)^neg × m × 2^e to binary32, with OF, UF and NX. -/
def fround (neg : Bool) (m : Nat) (e : Int) : Word × BitVec 5 :=
  if m = 0 then (fzero neg, 0) else
  let len : Int := (m.log2 : Int) + 1
  let top := len - 1 + e
  let lsb := max (top - 23) (-149)
  let sh := lsb - e
  let (q, inexact) := if sh ≤ 0 then (m * 2 ^ (-sh).toNat, false) else roundEven m sh.toNat
  let field := (lsb + 150).toNat
  let mag := if q < 2 ^ 23 then q else field * 2 ^ 23 + (q - 2 ^ 23)
  let sign : Nat := if neg then 2 ^ 31 else 0
  if 0x7F800000 ≤ mag then (finf neg, fOF ||| fNX)
  else
    let q24 := if len ≤ 24 then m * 2 ^ (24 - len).toNat else (roundEven m (len - 24).toNat).1
    let tiny := decide (top < -127) || (decide (top = -127) && decide (q24 < 2 ^ 24))
    let nx : BitVec 5 := if inexact then fNX else 0
    (BitVec.ofNat 32 (sign + mag), if tiny && inexact then nx ||| fUF else nx)

/-- A NaN operand gives the quiet NaN; a signalling one sets IV (R120). -/
def nanResult (sig : Bool) : Word × BitVec 5 := (qNaN, if sig then fIV else 0)

/-- A value signals. -/
def FVal.sig : FVal → Bool
  | .nan b => b
  | _ => false

/-- A value is a NaN. -/
def FVal.isNan : FVal → Bool
  | .nan _ => true
  | _ => false

/-- The exact signed value of m × 2^e at exponent lo ≤ e. -/
def fscale (neg : Bool) (m : Nat) (e lo : Int) : Int :=
  let v : Int := m * 2 ^ (e - lo).toNat
  if neg then -v else v

/-- a + b; the exact zero sum of unlike signs is +0. -/
def fadd (a b : Word) : Word × BitVec 5 :=
  let x := fval a
  let y := fval b
  if x.isNan || y.isNan then nanResult (x.sig || y.sig) else
  match x, y with
  | .inf s, .inf t => if s = t then (finf s, 0) else (qNaN, fIV)
  | .inf s, _ => (finf s, 0)
  | _, .inf t => (finf t, 0)
  | .fin s m e, .fin t n f =>
    let lo := min e f
    let v := fscale s m e lo + fscale t n f lo
    if v = 0 then (fzero (s && t), 0) else fround (decide (v < 0)) v.natAbs lo
  | _, _ => (qNaN, 0)

/-- −x as a pattern. -/
def fflip (a : Word) : Word := a ^^^ 0x80000000

/-- a − b. -/
def fsub (a b : Word) : Word × BitVec 5 := fadd a (fflip b)

/-- a × b. -/
def fmul (a b : Word) : Word × BitVec 5 :=
  let x := fval a
  let y := fval b
  if x.isNan || y.isNan then nanResult (x.sig || y.sig) else
  match x, y with
  | .inf s, .inf t => (finf (s != t), 0)
  | .inf s, .fin t n _ => if n = 0 then (qNaN, fIV) else (finf (s != t), 0)
  | .fin s m _, .inf t => if m = 0 then (qNaN, fIV) else (finf (s != t), 0)
  | .fin s m e, .fin t n f => fround (s != t) (m * n) (e + f)
  | _, _ => (qNaN, 0)

/-- a ÷ b: the quotient to more than 40 bits, with a sticky bit for its remainder. -/
def fdiv (a b : Word) : Word × BitVec 5 :=
  let x := fval a
  let y := fval b
  if x.isNan || y.isNan then nanResult (x.sig || y.sig) else
  match x, y with
  | .inf _, .inf _ => (qNaN, fIV)
  | .inf s, .fin t _ _ => (finf (s != t), 0)
  | .fin s _ _, .inf t => (fzero (s != t), 0)
  | .fin s m e, .fin t n f =>
    if n = 0 then (if m = 0 then (qNaN, fIV) else (finf (s != t), fDZ))
    else
      let q := m * 2 ^ 64 / n
      let r := m * 2 ^ 64 % n
      fround (s != t) (2 * q + (if r = 0 then 0 else 1)) (e - f - 65)
  | _, _ => (qNaN, 0)

/-- The integer square root, bit by bit. -/
def isqrt (n : Nat) : Nat → Nat → Nat
  | 0, r => r
  | i + 1, r => if (r + 2 ^ i) * (r + 2 ^ i) ≤ n then isqrt n i (r + 2 ^ i) else isqrt n i r

/-- √a. -/
def fsqrt (a : Word) : Word × BitVec 5 :=
  match fval a with
  | .nan sg => nanResult sg
  | .inf true => (qNaN, fIV)
  | .inf false => (finf false, 0)
  | .fin s m e =>
    if m = 0 then (fzero s, 0)
    else if s then (qNaN, fIV)
    else
      let odd := e % 2 = 1
      let n := (if odd then 2 * m else m) * 2 ^ 60
      let e' := (if odd then e - 1 else e) - 60
      let q := isqrt n 48 0
      fround false (2 * q + (if q * q = n then 0 else 1)) (e' / 2 - 1)

/-- FNEG and FABS: only the sign bit, except that a NaN gives the quiet NaN (R148). -/
def fneg (a : Word) : Word × BitVec 5 :=
  match fval a with
  | .nan sg => nanResult sg
  | _ => (fflip a, 0)
def fabs (a : Word) : Word × BitVec 5 :=
  match fval a with
  | .nan sg => nanResult sg
  | _ => (a &&& 0x7FFFFFFF, 0)

/-- The exact difference's sign of two values that are no NaNs: −1, 0 or 1. -/
def fcmpVal (x y : FVal) : Int :=
  match x, y with
  | .inf s, .inf t => if s = t then 0 else if s then -1 else 1
  | .inf s, _ => if s then -1 else 1
  | _, .inf t => if t then 1 else -1
  | .fin s m e, .fin t n f =>
    let lo := min e f
    let v := fscale s m e lo - fscale t n f lo
    if v < 0 then -1 else if v = 0 then 0 else 1
  | _, _ => 0

/-- FCMP (R121): C, Z, N, V of the relation of NOS to TOS, and IV for a signalling NaN. -/
def fcmpFlags (sw a b : Word) : Word × BitVec 5 :=
  let x := fval a
  let y := fval b
  let put (c z n v : Bool) : Word := setBit (setBit (setBit (setBit sw swC c) swZ z) swN n) swV v
  if x.isNan || y.isNan then (put true false false true, if x.sig || y.sig then fIV else 0)
  else
    let r := fcmpVal x y
    if r < 0 then (put false false true false, 0)
    else if r = 0 then (put true true false false, 0)
    else (put true false false false, 0)

/-- FITOF: a signed integer to the nearest float. -/
def fitof (x : Word) : Word × BitVec 5 := fround (decide (x.toInt < 0)) x.toInt.natAbs 0

/-- FFTOI: rounded by RM; a NaN gives 0 and IV, a value out of range the nearer end and IV (R123). -/
def fftoi (rm : Nat) (a : Word) : Word × BitVec 5 :=
  match fval a with
  | .nan _ => (0, fIV)
  | .inf s => (if s then 0x80000000 else 0x7FFFFFFF, fIV)
  | .fin s m e =>
    let x : Int := if s then -(m : Int) else m
    let v := if 0 ≤ e then x * 2 ^ e.toNat else roundShift rm x (-e).toNat
    let exact := if 0 ≤ e then true else decide (Int.fmod x (2 ^ (-e).toNat) = 0)
    if fitsS32 v then (BitVec.ofInt 32 v, if exact then 0 else fNX) else (clamp32 v, fIV)

end Sys2Proof.Machine
end

