-- ==== Sys2Proof/Machine/LogUnit.lean ====
section
/-! DEFINITION. The keeper's log (R448 to R456), the end of a lasting class (R457), and the independent watchdog (R462). -/

namespace Sys2Proof.Machine

abbrev LogOut := Host.Outcome State Fault Refusal

/-! ### Records and the ring (R448, R449) -/

/-- The 64 bytes of a record. -/
def LogRec.bytes (r : LogRec) : List Byte :=
  let body := toBytes r.time 6 ++ toBytes r.start 2 ++ toBytes r.code 2 ++ toBytes r.source 2
    ++ (List.range 48).map fun i => r.data.getD i 0
  body ++ toBytes (crc32 body) 4

/-- Record i of the ring. -/
def logAddr (i : Nat) : Nat := 0x750000 + 64 * (i % 256)

/-- Where the ring stands. -/
def State.logHead (s : State) : Nat := s.f Reg.LOG_HEAD 7 0
def State.logCount (s : State) : Nat := s.f Reg.LOG_HEAD 24 16
def State.logFrozen (s : State) : Bool := s.f Reg.LOG_STAT 1 0 != 0

/-- A record that a hardware path of the log writer forms now. -/
def State.logRec (s : State) (code : Nat) (data : List Byte) : LogRec :=
  ⟨s.clk.us % 2 ^ 48, s.str.startCount, code, 0x10F, data⟩

/-- Append a record to the ring: HEAD, COUNT and LOG_SEQ advance, and a critical one asks for the host's attention. -/
def State.ringAppend (s : State) (r : LogRec) : State :=
  let h := s.logHead
  let n := s.logCount
  let s := s.putWhole (logAddr h) r.bytes
  let s := (s.setF Reg.LOG_HEAD 7 0 (h + 1)).setF Reg.LOG_HEAD 24 16 (min (n + 1) 256)
  let s := s.setReg Reg.LOG_SEQ (s.reg Reg.LOG_SEQ + 1)
  if r.code / 0x8000 % 2 = 1 ∧ bit (s.reg Reg.LOG_CTRL) 0 then s.attn 2 else s

/-- A critical record reaches the side buffer unless it is full; any other record of a frozen log is lost (R452). -/
def State.sidePut (s : State) (r : LogRec) : State :=
  if r.code / 0x8000 % 2 = 1 ∧ s.log.side.length < 8 then { s with log := { s.log with side := s.log.side ++ [r] } }
  else s.count Reg.LOG_LOST

/-- The writer takes the oldest record of its queue (R451, R452). -/
def State.logStep (s : State) : State :=
  match s.log.queue with
  | [] => s
  | r :: t =>
    let s := { s with log := { s.log with queue := t } }
    if s.logFrozen then s.sidePut r else s.ringAppend r

/-- LOG_APPEND. -/
def execLogAppend (s : State) : LogOut := .next s.logStep

/-- The log thaws: the side buffer's records, then the log-thawed record (R453). -/
def State.thaw (s : State) : State :=
  let side := s.log.side
  let cause := s.log.causes
  let s := { s with log := { s.log with side := [], causes := 0 } }
  let s := side.foldl State.ringAppend s
  s.ringAppend (s.logRec 0x8061 (toBytes (s.reg Reg.LOG_LOST).toNat 4 ++ [BitVec.ofNat 8 side.length, BitVec.ofNat 8 cause]))

/-- LOG_FREEZE (R452). -/
def State.freeze (s : State) : State :=
  let s := s.setF Reg.LOG_STAT 0 0 1
  { s with log := { s.log with causes := s.log.causes ||| 1 } }

/-- A record of the ring as a reader gets it: a 64-bit word that cannot be corrected reads 0 (R451). Lantern reads it as the core port,
and meets machine check condition 1 (R255, R258); the last gasp's copy is the log writer's. -/
def State.logRead (s : State) (lantern : Bool) (i : Nat) : List Byte × State :=
  (List.range 8).foldl (fun (r : List Byte × State) k =>
    let a := logAddr i + 8 * k
    let q := if lantern then r.2.lanternCheck a else r.2.eccRead a 5
    (r.1 ++ (if q.1 then (rangeFrom a 8).map q.2.byte else toBytes 0 8), q.2)) ([], s)

/-- The last n records of the ring, newest first. -/
def State.logNewest (s : State) (lantern : Bool) : Nat → Nat → List (List Byte) × State
  | _, 0 => ([], s)
  | i, n + 1 =>
    let r := s.logRead lantern (i + 255)
    let q := r.2.logNewest lantern (i + 255) n
    (r.1 :: q.1, q.2)

/-- The writer appends all that waits in its queue. -/
def State.logFlush (s : State) : State := s.log.queue.foldl (fun s _ => s.logStep) s

/-- LOG_READ's copy of the newest k records as they stood with HEAD at h, oldest first, from the m-th on, in groups of 16 records between
which the writer empties its queue; a of the records appended since have overwritten the oldest ones (R454). -/
def State.logCopy (s : State) (h k m a : Nat) : Nat → List (List Byte) × State
  | 0 => ([], s)
  | fuel + 1 =>
    let g := min 16 (k - m)
    let r := s.logNewest true (h + 256 - k + m + g) g
    let recs := r.1.reverse
    if k ≤ m + g then (recs, r.2) else
    let t := r.2.logFlush
    let a := a + (t.reg Reg.LOG_SEQ - s.reg Reg.LOG_SEQ).toNat
    let q := t.logCopy h k (max (m + g) (a + k - 256)) a fuel
    (recs ++ q.1, q.2)

/-! ### Last gasp (R456) -/

/-- The last gasp's stream to XB: the newest 64 records, newest first, those of the side buffer before the ring's. -/
def State.gaspStream (s : State) : State :=
  let side := s.log.side.reverse.map LogRec.bytes
  let r := s.logNewest false s.logHead (min s.logCount (64 - side.length))
  let recs := side ++ r.1
  let all := recs ++ List.replicate (64 - recs.length) (toBytes 0 64)
  let s := r.2.putWhole 0x6DF000 (all.flatMap id)
  s.setReg Reg.LOG_LGSTAT (BitVec.ofNat 32 (recs.length + 0x80))

/-- The last-gasp sequence that a fall of PFAIL_N starts. -/
def State.lastGasp (s : State) : State :=
  if !bit (s.reg Reg.LOG_CTRL) 1 || bit (s.reg Reg.LOG_STAT) 1 then s else
  let s := (s.logStep).setF Reg.LOG_STAT 1 1 1
  let s := { s with log := { s.log with causes := s.log.causes ||| 2 } }
  let s := s.sidePut (s.logRec 0x8062 (toBytes (s.reg Reg.LOG_SEQ).toNat 4 ++ [BitVec.ofNat 8 s.log.side.length]))
  let s := s.irq 2
  if s.inRun 8 then s.gaspStream else s.setReg Reg.LOG_LGSTAT 0x100

/-- PFAIL_N has been 1 for 10 ms: LGFRZ clears, and the log thaws unless LOG_FREEZE holds it (R453). -/
def State.gaspEnds (s : State) : State :=
  if !bit (s.reg Reg.LOG_STAT) 1 then s else
  let s := s.setF Reg.LOG_STAT 1 1 0
  if s.logFrozen then s else s.thaw

/-! ### The classifier's bucket boundaries (R457) -/

/-- Time goes on to a value of the classifier's own time, if that is ahead. -/
def State.carryFt (s : State) (t : Nat) : State := s.carry (s.clk.us + (t - s.flt.ft))

/-- The first bucket from b on, within n more, whose window holds fewer than thr faults. -/
def bucketBelow (bs : List (Nat × Nat)) (thr b : Nat) : Nat → Nat
  | 0 => b
  | n + 1 => if inWindow b bs < thr then b else bucketBelow bs thr (b + 1) n

/-- A lasting class, or station of one, leaves that state at the first bucket boundary at which its count is below THR. -/
def execClassLastingEnd (c stn : Nat) (s : State) : LogOut :=
  .next (if 31 < c ∨ 512 ≤ stn then s else
    let e := s.fltEnt c stn
    if !e.lasting then s else
    let win := s.f (Reg.FLT_CFG + 4 * c) 21 0
    let b := bucketBelow e.buckets (s.f (Reg.FLT_CFG + 4 * c) 29 22) (s.bucketOf c s.flt.ft) 16
    let s := s.carryFt ((b * 1000 * win + 15) / 16)
    s.setFltEnt c stn { e with buckets := e.buckets.filter (fun x => decide (b < x.1 + 16)), lasting := false })

/-! ### The independent watchdog (R462) -/

/-- Half the period has passed without a restart. -/
def execWatchdogWarning (s : State) : LogOut :=
  .next (if s.pwr.por ∨ s.flt.wdtWarned ∨ s.dbg.wdLeft.isSome then s else
    let s := s.carryFt (s.flt.wdtFrom + s.flt.wdtLimit / 2)
    let s := { s with flt := { s.flt with wdtWarned := true } }
    let s := (s.setB Reg.FLT_WDT 16).fire 114
    (s.logPut 0x8051 0x110 (toBytes (min (s.wdtLeft / 1000) 0xFFFF) 2)).classify 20 0)

/-- The full period has passed: a block reset with cause WDT. -/
def execWatchdogExpiry (s : State) : LogOut :=
  .next (if s.pwr.por ∨ s.dbg.wdLeft.isSome then s else
    let s := s.carryFt (s.flt.wdtFrom + s.flt.wdtLimit)
    State.blockReset { s with flt := { s.flt with wdtFrom := s.flt.ft, wdtWarned := false } } 2)

end Sys2Proof.Machine
end

