-- ==== Sys2Proof/Machine/Store.lean ====
section
/-! DEFINITION. The control store (R232, R238, R248 to R252): its words as the OEM region and the image give them, parity
errors, and the reload of a word. And the bytes of the start record (R80). -/

namespace Sys2Proof.Machine

/-! ### The stores (R232, R236, R238) -/

/-- Microword i and nanoword i. -/
def State.micro (s : State) (i : Nat) : Nat := Map.get (fun _ => 0) s.mcs.micro i
def State.nano (s : State) (i : Nat) : Nat := Map.get (fun _ => 0) s.mcs.nano i
def State.setMicro (s : State) (i v : Nat) : State :=
  { s with mcs := { s.mcs with micro := Map.set (fun _ => 0) s.mcs.micro i (v % 2 ^ 28) } }
def State.setNano (s : State) (i v : Nat) : State :=
  { s with mcs := { s.mcs with nano := Map.set (fun _ => 0) s.mcs.nano i (v % 2 ^ 128) } }

/-- The empty pattern of a microword (R238). -/
abbrev emptyMicro : Nat := 0x000200C1

/-- The word of the reserved entries and of the unassigned codes: ENDF, vector 1, REASON 0 (R236). -/
abbrev unassignedMicro : Nat := 0x00020001

/-- OEM entry words that do not hold the empty pattern, once S3 has loaded the stores. -/
def State.oemEntries (s : State) : Nat :=
  if s.mcs.micro.isEmpty then 0
  else ((rangeFrom 3584 256).filter fun i => decide (s.micro i ≠ emptyMicro)).length

/-! ### Parity errors (R248, R249) -/

/-- The key of a store word in the list of bad words. -/
def badKey (nano : Bool) (i : Nat) : Nat := if nano then 4096 + i else i

/-- The halves of a store word that have bad parity; bit 0 stands for a microword. -/
def State.badAt (s : State) (nano : Bool) (i : Nat) : Nat := Map.get (fun _ => 0) s.mcs.bad (badKey nano i)

/-- The word's parity is set good or bad. -/
def State.setBad (s : State) (nano : Bool) (i h : Nat) : State :=
  { s with mcs := { s.mcs with bad := Map.set (fun _ => 0) s.mcs.bad (badKey nano i) h } }

/-- A parity error is found: MCS_PERR, MCS_PCOUNT, and source 108 fires (R248, R265). -/
def State.parityFound (s : State) (nano : Bool) (i h : Nat) (scrub : Bool) : State :=
  let s := s.setReg Reg.MCS_PERR (BitVec.ofNat 32 (i + nano.toNat * 0x1000
    + (if nano then h % 4 * 0x2000 else 0) + scrub.toNat * 0x8000 + 0x10000))
  (s.bump Reg.MCS_PCOUNT 15 0).fire 108

/-- The address of a store word's copy in the KB image. -/
def imageAddr (nano : Bool) (i : Nat) : Nat := if nano then 0x704000 + 16 * i else 0x700000 + 4 * i

/-- How a reload ends. -/
inductive Reloaded where
  | good | stuck | unread
  deriving DecidableEq, Repr

/-- The MCS unit reloads a word from the KB image and reads it back; `ok` says whether the read-back agrees. -/
def State.reload (s : State) (nano : Bool) (i : Nat) (ok : Bool) : Reloaded × State :=
  let r := s.eccSweep (imageAddr nano i) (if nano then 16 else 4) 4
  if !r.1 then (.unread, r.2) else
  let s := if nano then r.2.setNano i (r.2.mread (imageAddr nano i) 16) else r.2.setMicro i (r.2.mread (imageAddr nano i) 4)
  if ok then (.good, s.setBad nano i 0) else (.stuck, s.setB Reg.MCS_STAT 1)

/-- MCS_STAT.STUCK: a start with an operating mode requires a reset (R249). -/
def State.stuck (s : State) : Bool := bit (s.reg Reg.MCS_STAT) 1

/-- What Lantern makes of a reload: a stuck word stops the block and is logged (R249); an image word that cannot be read
brings a block reset (R251). -/
def State.afterReload (s : State) (nano : Bool) (i : Nat) : Reloaded → State
  | .good => s
  | .stuck => (s.enterStop 6).logPut 0x8021 0x04 ([BitVec.ofNat 8 nano.toNat, 0] ++ toBytes i 2)
  | .unread => s.blockReset causeRstreq

/-- The MCS unit's own repair of a word begins: MCS_STAT.AUTO, the count, the class, and its record by the hardware path
(R250). -/
def State.repair (s : State) (nano : Bool) (i h : Nat) : State :=
  let s := ((s.setB Reg.MCS_STAT 0).bump Reg.MCS_AUTO 15 0).classify 0 0
  s.logPut 0x0020 0x104 ([BitVec.ofNat 8 nano.toNat, BitVec.ofNat 8 (if nano then h else 0)] ++ toBytes i 2)

/-- The MCS unit's own repair of a word, with what its read-back finds: a free value. -/
def State.ownRepair (s : State) (nano : Bool) (i h : Nat) : Reloaded × State :=
  (s.tickFree.repair nano i h).reload nano i (Config.readBack s.free)

/-- The nanoword that microword i names (R232). -/
def State.nanoOf (s : State) (i : Nat) : Nat := s.micro i / 2 ^ 18 % 1024

/-- A store word is about to execute for context n and has bad parity in the halves h: machine check 0, or with that
condition already pending the MCS unit's own repair (R248, R250). The answer says whether the routine goes on. -/
def State.badWord (s : State) (n : Nat) (nano : Bool) (i h : Nat) : Bool × State :=
  let s := s.parityFound nano i h false
  if s.f Reg.EXC_MCPEND 0 0 = 0 then (false, s.mcheck 0 (some n) 0) else
  match s.ownRepair nano i h with
  | (.good, s) => (true, s)
  | (r, s) => (false, s.afterReload nano i r)

/-- The microword at m and the nanoword it names are checked as they are read for context n (R248). -/
def State.wordsGood (s : State) (n m : Nat) : Bool × State :=
  let r := if s.badAt false m = 0 then (true, s) else s.badWord n false m (s.badAt false m)
  if !r.1 then r else
  let s := r.2
  let k := s.nanoOf m
  if s.badAt true k = 0 then (true, s) else s.badWord n true k (s.badAt true k)

/-- The words that a routine of entry word m executes from its j-th safe point on, to the next, are checked, the entry word before
the first: the first that is bad and not repaired abandons the routine there (R248). Which path it takes is a free value. -/
def State.stretchGood (s : State) (n m j : Nat) : Bool × State :=
  if s.mcs.bad = [] then (true, s) else
  ((if j = 0 then [m] else []) ++ Config.continuation m j s.free).foldl
    (fun (r : Bool × State) i => if r.1 then r.2.wordsGood n i else r) (true, s.tickFree)

/-- The same up to the routine's first safe point, or to its end where it has none. -/
def State.routineGood (s : State) (n m : Nat) : Bool × State := s.stretchGood n m 0

/-- The entry words of the hardware routines (R236). -/
abbrev hwFault : Nat := 1813
abbrev hwSpill : Nat := 1814
abbrev hwFill : Nat := 1815
abbrev hwRetSpill : Nat := 1816
abbrev hwRetFill : Nat := 1817
abbrev hwFp : Nat := 1818
abbrev hwInit : Nat := 1819

/-- The routine of R187 for context n: abandoned at a bad word, it is started again by its requester (R248). It reads the entries of the
descriptor table that the context selects (R258). -/
def State.initRoutine (s : State) (n : Nat) : State :=
  ((List.range 8).filter fun k => decide (s.cdIdx n k ≠ 0)).foldl
    (fun (s : State) k => (s.lanternCheck (sdtBase + 8 * s.cdIdx n k)).2) (s.routineGood n hwInit).2

/-- A keyed write of MCS_RELOAD. DESIGN CHOICE: one that names a nanoword of 1024 or more, which does not exist, is ignored. -/
def State.mcsReload (s : State) (v : Word) (ok : Bool) : State :=
  let nano := bit v 12
  let i := fld v 11 0
  if fld v 31 24 ≠ 0xA5 ∨ (nano ∧ 1024 ≤ i) then s else
  let r := s.reload nano i ok
  r.2.afterReload nano i r.1

/-! ### The start record (R80, R81) -/

/-- The bytes of a step word. -/
def StepRec.bytes (r : StepRec) : List Byte := toBytes (r.outcome + r.count * 4 + r.reason * 16 + r.time * 256) 4

/-- FLAGS of the start record. -/
def Str.flags (r : Str) : Nat :=
  r.cold.toNat + r.restored.toNat * 2 + r.patchless.toNat * 4 + (decide (r.mapout ≠ 0)).toNat * 8

/-- A list of numbers as bytes of a width each, filled up with zeros to n entries. -/
def padBytes (l : List Nat) (n w : Nat) : List Byte := (List.range n).flatMap fun i => toBytes (l.getD i 0) w

/-- Bytes 0 to 123 of the start record. -/
def State.recordBody (s : State) : List Byte :=
  let r := s.str
  toBytes 0x00800001 4 ++ toBytes r.startCount 2 ++ [BitVec.ofNat 8 r.cause, BitVec.ofNat 8 r.flags]
    ++ (List.range 10).flatMap (fun n => (s.stepRec n).bytes)
    ++ toBytes (s.reg Reg.STR_CFG).toNat 4
    ++ [BitVec.ofNat 8 (r.entered + r.prevMode * 4 + r.gen * 16), BitVec.ofNat 8 (r.step + r.patches * 16)]
    ++ toBytes r.mapout 2 ++ padBytes r.patchIds 4 4 ++ padBytes r.patchRes 4 1 ++ toBytes r.lastRun 2 ++ [0, 0]
    ++ (List.range 32).map (fun i => r.genDigest.getD i 0) ++ toBytes r.genLen 4 ++ toBytes 0 8

/-- The 128 bytes of the start record with its CRC. -/
def State.recordBytes (s : State) : List Byte := s.recordBody ++ toBytes (crc32 s.recordBody) 4

end Sys2Proof.Machine
end

