-- ==== Sys2Proof/Machine/Olc.lean ====
section
/-! DEFINITION. Online change: the generation header and its tables (R350, R351, R365), installation (R187), verification
(R353, R354), the checks of a commit (R355), migration (R358 to R360), the handover (R361 to R366) and constant patches
(R368). -/

namespace Sys2Proof.Machine

/-! ### Checked accesses of a master -/

/-- Read n bytes; none where the access is answered DOMAIN_OFF or the word cannot be corrected. -/
def State.bankRead (s : State) (a n master : Nat) : Option Nat × State :=
  if !s.serves (domainOf a) then (none, s.domainOff)
  else match (s.touch (domainOf a)).eccRead a master with
    | (false, s) => (none, s)
    | (true, s) => (some (s.mread a n), s)

/-- Write n bytes; false where the word keeps its contents (R256, R258). `stamp` says whether the write stamps. -/
def State.bankWrite (s : State) (a n v master : Nat) (stamp : Bool) : Bool × State :=
  if !s.serves (domainOf a) then (false, s.domainOff)
  else
    let q := if n = 8 then (true, s.touch (domainOf a)) else (s.touch (domainOf a)).eccRead a master
    match q with
    | (false, s) => (false, s)
    | (true, s) =>
      (true, if stamp then s.bankStore a n v master else ((s.setEcc a .none).xbWrote a n).mwrite a n v)

/-! ### Targets and the header (R350) -/

/-- Offset 0 of a target (1 CBA, 2 CBB, 3 joined) and its size. -/
def genBase (t : Nat) : Nat := if t = 2 then 0x200000 else 0
def genSize (t : Nat) : Nat := if t = 3 then 0x400000 else 0x200000

/-- A word of the header of target t. -/
def State.hdr (s : State) (t off : Nat) : Nat := (s.w32 (genBase t + off)).toNat
def State.genId (s : State) (t : Nat) : Nat := if t = 0 then 0 else s.hdr t 8
def State.genLenOf (s : State) (t : Nat) : Nat := s.hdr t 12
def State.mapCnt (s : State) (t : Nat) : Nat := s.hdr t 28

/-- A table of n bytes at an offset of the image; one without entries is not checked. -/
def tableIn (len off n : Nat) : Bool := decide (n = 0) || (decide (off % 8 = 0) && decide (off + n ≤ len))

/-- The header of target t keeps R350, and its JOINED flag matches the target. -/
def State.headerOk (s : State) (t : Nat) : Bool :=
  let len := s.genLenOf t
  decide (s.hdr t 0 = 0x4E45474B) && decide (s.hdr t 4 = 1 + (decide (t = 3)).toNat * 65536)
    && decide (len % 8 = 0) && decide (4096 ≤ len) && decide (len ≤ genSize t)
    && tableIn len (s.hdr t 16) 2176 && tableIn len (s.hdr t 20) 2048
    && decide (s.mapCnt t ≤ 65536) && tableIn len (s.hdr t 24) (16 * s.mapCnt t)
    && decide (s.hdr t 36 ≤ 8192) && tableIn len (s.hdr t 32) (8 * s.hdr t 36)
    && decide (s.hdr t 44 % 8 = 0) && tableIn len (s.hdr t 40) (s.hdr t 44)
    && (List.range 4).all fun k => decide (s.hdr t (48 + 4 * k) = 0)

/-- A half of a code bank is mapped out, so the banks are never joined (R263). -/
def State.neverJoined (s : State) : Bool := s.mappedOut 0x100000 || s.mappedOut 0x300000

/-- The first LEN bytes of target t, or their number given. -/
def State.genBytes (s : State) (t n : Nat) : List Byte := (rangeFrom (genBase t) n).map s.byte

/-- The bank domains of a target. -/
def targetPds (t : Nat) : List Nat := if t = 1 then [4] else if t = 2 then [5] else if t = 3 then [4, 5] else []

/-! ### Verification (R353, R354) -/

/-- The verified digest of a target; empty where it is not verified. -/
def State.verified (s : State) (t : Nat) : List Byte :=
  if t = 1 then s.olc.digA else if t = 2 then s.olc.digB else if t = 3 then s.olc.digJ else []

/-- Target t is verified with a digest. -/
def State.setVerified (s : State) (t : Nat) (d : List Byte) : State :=
  { s with olc :=
      if t = 1 then { s.olc with digA := d }
      else if t = 2 then { s.olc with digB := d }
      else { s.olc with digJ := d } }

/-- A target loses its verification, a joined one with either bank (R354); a digest under way over it is cut short (R353). -/
def State.dropTarget (s : State) (t : Nat) : State :=
  let s := s.finishJob (fun j => j.op == 0x09 && (j.args.headD 0 == t || j.args.headD 0 == 3)) rABORTED
  if t = 3 then s.setVerified 3 [] else (s.setVerified t []).setVerified 3 []

/-! ### Installation (R187, R351) -/

/-- The mask of a register's RW fields. -/
def rwMask (a : Nat) : Word :=
  (fieldsAt a).foldl (fun m f => if f.acc = .RW then m ||| mask 32 f.hi f.lo else m) 0

/-- A word of a range has an error that cannot be corrected. -/
def State.unreadable (s : State) (a n : Nat) : Bool :=
  s.banks.ecc.any fun e => e.2 == .double && decide (a / 8 ≤ e.1) && decide (e.1 * 8 < a + n)

/-- What context n is initialised from in target t cannot be read: its context descriptor, or an entry of the descriptor image that
it selects (R370). -/
def State.tableFails (s : State) (t n : Nat) : Bool :=
  s.unreadable (genBase t + s.hdr t 16 + 32 * n) 32
    || (List.range 8).any fun k => s.cdIdx n k != 0 && s.unreadable (genBase t + s.hdr t 20 + 8 * s.cdIdx n k) 8

/-- The tables of target t can be read. -/
def State.tablesReadable (s : State) (t : Nat) : Bool × State :=
  let a := s.lanternSweep (genBase t + s.hdr t 16) 2176
  let b := a.2.lanternSweep (genBase t + s.hdr t 20) 2048
  (a.1 && b.1, b.2)

/-- Lantern installs the tables of target t: descriptor image, context descriptors and routes. DESIGN CHOICE: the installation also writes the
FPSA of the context that owns the FP state, a write that R186 ignores when a program makes it. -/
def State.install (s : State) (t : Nat) : State :=
  let c := genBase t + s.hdr t 16
  let d := genBase t + s.hdr t 20
  let s := s.overwrite sdtBase ((rangeFrom d 2048).map s.byte)
  let s := (List.range 512).foldl (fun (s : State) i =>
    let a := Reg.CAR_CD + 4 * i
    s.setReg a (s.w32 (c + 4 * i) &&& rwMask a)) s
  (List.range 128).foldl (fun (s : State) i =>
    let a := Reg.CAR_ROUTE + 4 * i
    s.setReg a (BitVec.ofNat 32 (s.byte (c + 2048 + i)).toNat &&& rwMask a)) s

/-- Every context is initialised (R187). DEDUCED: a load that STOP has left held on the core ends with the context that made it. -/
def State.initAll (s : State) : State :=
  let s := { s with car := { s.car with running := none }, core := { s.core with held := none } }
  (List.range 64).foldl (fun s n => (s.initRoutine n).initCtx n) s

/-- The initialisation of context 0 has failed or has not put it in service (R188). -/
def State.ctx0Fails (s : State) : Bool := bit (s.cdCtrl 0) 4 && s.initFails 0

/-- The caches and tables are cleared as a generation switch clears them (R180). -/
def State.clearForSwitch (s : State) : State :=
  let s := (s.invalidate 0 0x3FFFFF).clearPrediction
  { s with core := { s.core with lineBuf := none, badPar := s.core.badPar.filter fun e => decide (e.1 ≠ .lineBuf) } }

/-! ### Stamp breaks (R270) -/

/-- A stamp break is made: CYC takes 128 more for it at the next cycle start (R270). -/
def State.stampBreak (s : State) : State := { s with scn := { s.scn with breaks := s.scn.breaks + 1 } }

/-- CYC of the next cycle as it stands to be: with the breaks that wait, and the break of an entry to RUN where the block is not in
RUN or HOLD (R270). -/
def State.nextCyc (s : State) : Nat :=
  (s.scn.cyc + 128 * (s.scn.breaks + (if s.scn.mode = .run ∨ s.scn.mode = .hold then 0 else 1)) + 1) % 2 ^ 56

/-! ### Migration (R358 to R360) -/

/-- An entry of a migration map. -/
structure MapEnt where
  w0 : Nat
  src : Nat
  dst : Nat
  val : Nat
  deriving DecidableEq, Repr

/-- Entry i of the map of target t. -/
def State.mapEnt (s : State) (t i : Nat) : MapEnt :=
  let a := genBase t + s.hdr t 24 + 16 * i
  ⟨(s.w32 a).toNat, (s.w32 (a + 4)).toNat, (s.w32 (a + 8)).toNat, (s.w32 (a + 12)).toNat⟩

def MapEnt.op (e : MapEnt) : Nat := e.w0 % 16
def MapEnt.size (e : MapEnt) : Nat := 2 ^ (e.w0 / 16 % 4)

/-- The bytes that an entry writes. -/
def MapEnt.wsize (e : MapEnt) : Nat := if 3 ≤ e.op ∧ e.op ≤ 6 then 4 else e.size

/-- A range lies in a bank region that migration may use: DB, SB above the descriptor table, or IB words lo to hi. -/
def State.migRange (s : State) (a n lo hi : Nat) : Bool :=
  let inside (x y : Nat) : Bool := decide (x ≤ a) && decide (a + n ≤ y)
  decide (a % n = 0) && !s.mappedOut a
    && (inside 0x400000 0x600000 || inside 0x600800 0x680000 || inside (imgAddr lo) (imgAddr hi))

/-- An entry obeys R358; `old` is the generation that it migrates from. -/
def State.mapEntOk (s : State) (old : Nat) (e : MapEnt) : Bool :=
  let size := e.w0 / 16 % 4
  let srcOk : Bool := s.migRange e.src e.size 0 17408
    || (decide (e.src % e.size = 0) && !s.mappedOut e.src && decide (old ≠ 0) && decide (genBase old ≤ e.src)
      && decide (e.src + e.size ≤ genBase old + genSize old))
  let dstOk : Bool := s.migRange e.dst e.wsize 4096 16384
  decide (e.w0 < 64) && (decide (e.op = 2) || decide (e.val = 0)) && match e.op with
    | 1 => srcOk && dstOk
    | 2 => decide (e.src = 0) && dstOk
    | 3 => decide (size ≤ 1) && srcOk && dstOk
    | 4 => decide (size ≤ 1) && srcOk && dstOk
    | 5 => decide (size = 2) && srcOk && dstOk
    | 6 => decide (size = 2) && srcOk && dstOk
    | 7 => decide (size = 0) && decide (e.src < 17408 * 64) && decide (4096 * 64 ≤ e.dst) && decide (e.dst < 16384 * 64)
    | _ => false

/-- Sign-extend the low n bytes of a number to a word or more. -/
def sextBytes (n m v : Nat) : Nat := if v / 2 ^ (8 * n - 1) % 2 = 1 then v + (2 ^ (8 * m) - 2 ^ (8 * n)) else v

/-- What an entry writes for the value it has read. -/
def MapEnt.convert (e : MapEnt) (v : Nat) : Nat :=
  match e.op with
  | 3 => sextBytes e.size 4 v
  | 5 => (fitof (BitVec.ofNat 32 v)).1.toNat
  | 6 => (fftoi 2 (BitVec.ofNat 32 v)).1.toNat
  | _ => v

/-- Execute an entry; the truth value says whether it succeeded. -/
def State.migrate (s : State) (e : MapEnt) : Bool × State :=
  if e.op = 2 then
    s.bankWrite e.dst e.size (if e.size = 8 then sextBytes 4 8 e.val else e.val) 8 false
  else if e.op = 7 then
    let q := s.bankRead (imgAddr (e.src / 64)) 8 8
    let b := match q.1 with
      | some v => v / 2 ^ (e.src % 64) % 2 = 1
      | none => false
    match q.2.bankRead (imgAddr (e.dst / 64)) 8 8 with
    | (some w, s) =>
      let r := s.bankWrite (imgAddr (e.dst / 64)) 8 (setBit (BitVec.ofNat 64 w) (e.dst % 64) b).toNat 8 false
      (q.1.isSome && r.1, r.2)
    | (none, s) => (false, s)
  else
    let q := s.bankRead e.src e.size 8
    let v := match q.1 with
      | some v => e.convert v
      | none => 0
    let r := q.2.bankWrite e.dst e.wsize v 8 false
    (q.1.isSome && r.1, r.2)

/-- Entry i has failed: it is counted, classified and logged (R360). -/
def State.migFails (s : State) (i : Nat) (e : MapEnt) : State :=
  let s := (s.count Reg.OLC_MFAIL).classify 18 0
  s.logPut 0x8030 0x0A (toBytes i 4 ++ [BitVec.ofNat 8 e.op, BitVec.ofNat 8 (e.w0 / 16 % 4), 0, 0]
    ++ toBytes e.src 4 ++ toBytes e.dst 4)

/-- The engine executes the map of target t in order; the indices of the failed entries are given. -/
def State.migration (s : State) (t : Nat) : List Nat × State :=
  (List.range (s.mapCnt t)).foldl (fun (r : List Nat × State) i =>
    let e := r.2.mapEnt t i
    match r.2.migrate e with
    | (true, s) => (r.1, s)
    | (false, s) => (r.1 ++ [i], s.migFails i e)) ([], s)

/-! ### Point references (R365) -/

/-- Every table of target t that a commit is checked against can be read (R258, R355). -/
def State.imageReadable (s : State) (t : Nat) : Bool × State :=
  let b := genBase t
  [(b, 64), (b + s.hdr t 16, 2048), (b + s.hdr t 20, 2048), (b + s.hdr t 24, 16 * s.mapCnt t), (b + s.hdr t 32, 8 * s.hdr t 36)].foldl
    (fun (r : Bool × State) e => let q := r.2.lanternSweep e.1 e.2; (r.1 && q.1, q.2)) (true, s)

/-- The reference table of target t: image words and their TAGs. -/
def State.prefs (s : State) (t : Nat) : List (Nat × Word) :=
  if t = 0 then [] else
  (List.range (s.hdr t 36)).map fun k =>
    let a := genBase t + s.hdr t 32 + 8 * k
    ((s.w32 a).toNat, s.w32 (a + 4))

/-- The entries of a reference table obey R365. -/
def prefsOk : List (Nat × Word) → Bool
  | [] => true
  | [(w, _)] => decide (w < 8192)
  | (w, _) :: (v, t) :: r => decide (w < v) && prefsOk ((v, t) :: r)

/-- The record of a forced word that is re-referenced: old table only and new table only; none where it is not. -/
def reReferenced (old new : List (Nat × Word)) (w : Nat) : Option (Bool × Bool) :=
  let o := (old.find? fun e => e.1 == w).map (·.2)
  let n := (new.find? fun e => e.1 == w).map (·.2)
  match o, n with
  | some a, some b => if a = b then none else some (false, false)
  | some _, none => some (true, false)
  | none, some _ => some (false, true)
  | none, none => if old.isEmpty || new.isEmpty then some (false, false) else none

/-! ### The checks of a commit (R355) -/

/-- HB of target t in cc (R362). -/
def State.hbOf (s : State) (t : Nat) : Nat := 8 * s.mapCnt t + 12288

/-- The frequency of CORE_CLK that S1 measured, in Hz: a count over 8 cycles of 32,768 Hz. -/
def State.fcoreHz (s : State) : Nat := s.str.fcore * 4096

/-- An entry of the descriptor image keeps the rule of R355 for target t. -/
def State.imageDescOk (s : State) (t i : Nat) : Bool :=
  let a := genBase t + s.hdr t 20 + 8 * i
  let d : Word × Word := (s.w32 a, s.w32 (a + 4))
  let lo := dBase d
  let hi := dBase d + dLimit d
  let inside := decide (genBase t ≤ lo) && decide (hi < genBase t + genSize t)
  let other := if t = 1 then decide (0x200000 ≤ hi) && decide (lo < 0x400000)
    else if t = 2 then decide (lo < 0x200000) else false
  !dVALID d || ((!dX d || inside) && !other)

/-- The content of target t passes the checks of R355 from the fifth on. -/
def State.commitContentOk (s : State) (t : Nat) : Bool :=
  let s' := s.install t
  bit (s'.cdCtrl 0) 4
    && (List.range 64).all (fun n => !bit (s'.cdCtrl n) 4 || !s'.initFails n)
    && (rangeFrom 1 255).all (fun i => s.imageDescOk t i)
    && (List.range (s.mapCnt t)).all (fun i => s.mapEntOk s.str.gen (s.mapEnt t i))
    && prefsOk (s.prefs t)
    && decide (s.hbOf t * 1000000 ≤ s.f Reg.OLC_CFG 31 16 * s.fcoreHz)

/-! ### The handover (R361) -/

/-- Steps 3 and 4: the start record names target t, its tables are installed, and every context is initialised; R188 applies to one
whose tables cannot be read (R370). -/
def State.switchTo (s : State) (t : Nat) (digest : List Byte) : State :=
  let s := { s with str := { s.str with gen := t, genDigest := digest, genLen := s.genLenOf t } }
  let s := (targetPds t).foldl (fun s pd => s.dropTarget (pd - 3)) s
  let s := (s.tablesReadable t).2
  let s := (s.install t).initAll
  let bad := (List.range 64).filter fun n : Nat => bit (s.cdCtrl n) 4 && decide ((s.ctx n).st ≠ CtxSt.halted) && s.tableFails t n
  (bad.foldl State.failInit s).clearForSwitch

/-- Step 5: a stamp break, GENSW, and OLC_GENID and OLC_SWCYC. The handover's length in cc is a free value up to HB. -/
def State.switched (s : State) (t : Nat) : State :=
  let s := s.stampBreak
  let s := { s with scn := { s.scn with genSw := true } }
  let s := s.setReg Reg.OLC_GENID (BitVec.ofNat 32 (s.genId t))
  let s := s.setReg Reg.OLC_SWCYC (BitVec.ofNat 32 s.nextCyc)
  let s := s.setReg Reg.OLC_HCC (BitVec.ofNat 32 ((Config.freeWord s.free).toNat % (s.hbOf t + 1)))
  (s.count Reg.OLC_HCNT).tickFree

/-- What a handover leaves to report: the failed entries, the number of entries, the re-referenced forced words. -/
structure HandReport where
  fails : List Nat
  entries : Nat
  refs : List (Nat × Bool × Bool × DWord)
  oldId : Nat
  deriving DecidableEq, Repr

/-- The forced words that the switch from the active generation to target t re-references. -/
def State.forceRefs (s : State) (t : Nat) : List (Nat × Bool × Bool × DWord) :=
  let old := s.prefs s.str.gen
  let new := s.prefs t
  s.forces.filterMap fun f => (reReferenced old new f.word).map fun r => (f.word, r.1, r.2, f.fe)

/-- GEN_ID of the active generation, as the handover's record and report name it: 0 where none is active. -/
def State.oldGenId (s : State) : Nat := if s.str.gen = 0 then 0 else (s.reg Reg.OLC_GENID).toNat

/-- The handover to target t (R361). -/
def State.handover (s : State) (t : Nat) (digest : List Byte) : HandReport × State :=
  let oldId := s.oldGenId
  let n := s.mapCnt t
  let (fails, s) := s.migration t
  let refs := s.forceRefs t
  let s := (s.switchTo t digest).switched t
  let s := s.logPut 0x0031 0x0A (toBytes oldId 4 ++ toBytes (s.genId t) 4 ++ toBytes s.nextCyc 4)
  (⟨fails, n, refs, oldId⟩, s)

/-- The handover report (R366). -/
def HandReport.bytes (r : HandReport) (status cyc newId hcc : Nat) : List Byte :=
  let ix (k : Nat) : Nat := r.fails.getD k 0xFFFFFFFF
  toBytes status 4 ++ toBytes cyc 4 ++ toBytes newId 4 ++ toBytes r.oldId 4 ++ toBytes r.entries 4
    ++ toBytes r.fails.length 4 ++ toBytes r.refs.length 4 ++ toBytes hcc 4
    ++ (List.range 16).flatMap (fun k => toBytes (ix k) 4)
    ++ r.refs.flatMap fun e =>
      toBytes (e.1 + e.2.1.toNat * 0x4000 + e.2.2.1.toNat * 0x8000) 8 ++ toBytes e.2.2.2.toNat 8

/-- The pending commit is carried out: handover, report, reply (R356, R361). The standby is told of it (R369). -/
def State.runCommit (s : State) : State :=
  match s.olc.commit with
  | none => s
  | some c =>
    let d := s.verified c.target
    let s := { s with olc := { s.olc with commit := none } }
    let s := s.tellCmd 0x0A 5 (BitVec.ofNat 32 c.target :: bytesToWords d)
    let (r, s) := s.handover c.target d
    let cyc := s.nextCyc % 2 ^ 32
    let w := s.writeResult c.report (r.bytes 0 cyc (s.genId c.target) (s.reg Reg.OLC_HCC).toNat)
    if w.1 then w.2.finishWith (fun j => j.op == 0x0A) rOK
      [BitVec.ofNat 32 cyc, BitVec.ofNat 32 r.fails.length, BitVec.ofNat 32 r.refs.length]
    else w.2.finishJob (fun j => j.op == 0x0A) rABORTED

/-- The pending commit is refused by its timeout (R357). -/
def State.commitTimesOut (s : State) : State :=
  match s.olc.commit with
  | none => s
  | some c =>
    let s := { s with olc := { s.olc with commit := none } }
    let r : HandReport := ⟨[], 0, [], s.oldGenId⟩
    let w := s.writeResult c.report (r.bytes 1 0 (s.genId c.target) 0)
    (w.2.count Reg.OLC_HTMO).finishJob (fun j => j.op == 0x0A) (if w.1 then rBUSY else rABORTED)

/-- The pending commit has waited for HTO ms (R357). -/
def State.commitOverdue (s : State) : Bool :=
  match s.olc.commit with
  | none => false
  | some c => decide (c.at_ + 1000 * s.f Reg.OLC_CFG 15 0 ≤ s.clk.us)

/-- The idle condition of R356. -/
def State.commitIdle (s : State) : Bool :=
  (List.range 64).all (fun n =>
    let c := s.ctx n
    !c.pend && (decide (n = 0) || (decide (c.st ≠ .ready) && decide (s.car.running ≠ some n))))
    && decide (s.car.latches = 0)

/-! ### PATCH_CONST (R368) -/

/-- The entries of a packet: address word and value. -/
def constEntries (ws : List Word) : List (Nat × Word) :=
  (List.range (fld (ws.getD 1 0) 4 0)).map fun j => ((ws.getD (10 + 2 * j) 0).toNat, ws.getD (11 + 2 * j) 0)

/-- A reserved bit of an entry's address word is 1, or its SIZE is 3: check 6 refuses it. -/
def constEntryBad (e : Nat × Word) : Bool := decide (2 ^ 25 ≤ e.1) || decide (e.1 / 2 ^ 23 % 4 = 3)

/-- An entry keeps R368 for the active generation. -/
def State.constEntryOk (s : State) (e : Nat × Word) : Bool :=
  let a := e.1 % 2 ^ 23
  let n := 2 ^ (e.1 / 2 ^ 23 % 4)
  let g := s.str.gen
  let lo := genBase g + s.hdr g 40
  decide (e.1 < 2 ^ 25) && decide (n < 8) && decide (a % n = 0)
    && ((decide (lo ≤ a) && decide (a + n ≤ lo + s.hdr g 44))
      || (decide (0x400000 ≤ a) && decide (a + n ≤ 0x600000)) || (decide (0x600800 ≤ a) && decide (a + n ≤ 0x680000)))
    && !s.mappedOut a

/-- The digest of a packet: all 0 when no entry lies in a code bank. Of one that is all 0 with such an entry the rule says only that
it is not written. -/
def constDigestOk (ws : List Word) : Bool :=
  let zero := (ws.drop 2).take 8 |>.all (· == 0)
  let code := (constEntries ws).any fun e => decide (e.1 % 2 ^ 23 < 0x400000)
  zero || code

/-- A packet is applied: the writes, the caches, GEN_DIGEST, a stamp break and CONSTP. -/
def State.applyConst (s : State) (ws : List Word) : State :=
  let s := (constEntries ws).foldl (fun (s : State) e =>
    let a := e.1 % 2 ^ 23
    let s := (s.bankWrite a (2 ^ (e.1 / 2 ^ 23 % 4)) e.2.toNat 8 true).2
    if a < 0x400000 then s.invalidate a a else s) s
  let d := wordsToBytes ((ws.drop 2).take 8)
  let s := if d.all (· == 0) then s else { s with str := { s.str with genDigest := d } }
  let s := s.stampBreak
  { s with scn := { s.scn with constP := true } }

/-- Every staged packet is applied in acceptance order, told to the standby and answered. -/
def State.applyConsts (s : State) : State :=
  let l := s.olc.consts
  let s := { s with olc := { s.olc with consts := [] } }
  l.foldl (fun (s : State) p =>
    let s := (s.applyConst p.2).tellCmd 0x0C 5 (p.2.drop 1)
    s.finishJob (fun j => j.op == 0x0C && j.slot == p.1) rOK) s

/-! ### Verification by digest (R353) -/

/-- VERIFY_CODE of target t compares the digest of its first LEN bytes with the expected one. -/
def State.verifyDigest (s : State) (t : Nat) (expect : List Byte) : State :=
  let r := s.lanternSweep (genBase t) (s.genLenOf t)
  let s := r.2
  let fin (s : State) (code : Nat) : State := s.finishJob (fun j => j.op == 0x09) code
  if !r.1 then fin (if t = s.str.gen then s else s.dropTarget t) rABORTED
  else
    let d := sha256 (s.genBytes t (s.genLenOf t))
    if d ≠ expect then fin (if t = s.str.gen then s else s.setVerified t []) rAUTH
    else if t = s.str.gen then
      let s := { s with str := { s.str with genDigest := d, genLen := s.genLenOf t } }
      fin (s.setStep 8 { s.stepRec 8 with count := 0 }) rOK
    else if (targetPds t).any (fun pd => s.activePd pd) then fin s rOK
    else fin (s.setVerified t d) rOK

end Sys2Proof.Machine
end

