-- ==== Sys2Proof/Machine/RegFile.lean ====
section
/-! DEFINITION. Reads and writes of the register pages (R5 to R10, R20, R21): what a page shows of the units' own state,
which reads of a context return 0, the read side effects, the level of a write, and what each write sets off. -/

namespace Sys2Proof.Machine

/-! ### What a register shows -/

/-- A word with bits at 1 for the elements of a list that satisfy a test. -/
def bitsOf (n : Nat) (p : Nat → Bool) : Nat := (List.range n).foldl (fun m i => m + (p i).toNat * 2 ^ i) 0

/-- A register of page 0x01. The greatest latency measured is a time, and so a free value (R198). -/
def State.shownCar (s : State) (a off c : Nat) : Word :=
  match c with
  | 0x000 => BitVec.ofNat 32 (s.car.running.getD 0 + s.car.running.isNone.toNat * 0x40
      + (s.car.running.isSome && s.core.lantern.slot).toNat * 0x80
      + (s.readySet.filter fun n => decide (s.car.running ≠ some n)).length * 0x100)
  | 0x008 => BitVec.ofNat 32 (s.core.fpown.getD 0x40 + (s.core.fpown.isSome && s.core.pin).toNat * 0x80)
  | 0x028 => if s.car.measured = 0 then 0 else BitVec.ofNat 32 (Config.eventLatency s.car.measured % 0x10000)
  | 0x400 => BitVec.ofNat 32 (s.ctx ((off - 0x400) / 4)).prio
  | 0x500 => s.cstat ((off - 0x500) / 4)
  | _ => s.reg a

/-- A register of page 0x02 (R184). The counts include what Lantern's own code has added, and PIP_SBFULL counts the cycles of the
holds whose number its register keeps: a free value. -/
def State.shownPip (s : State) (a c : Nat) : Word :=
  let own := (s.reg a).toNat
  match c with
  | 0x004 => BitVec.ofNat 32 (s.core.sb.length + (s.core.fills.any fun f => !f.data).toNat * 8
      + (s.core.fills.any fun f => f.data).toNat * 16)
  | _ => if 0x010 ≤ c ∧ c ≤ 0x028 then
      let held := if c = 0x020 ∧ own ≠ 0 then Config.storeHold own else 0
      BitVec.ofNat 32 (min (own + held + s.core.lantern.counts.getD ((c - 0x010) / 4) 0) 0xFFFFFFFF)
    else s.reg a

/-- A register of page 0x06. -/
def State.shownScn (s : State) (a c : Nat) : Word :=
  match c with
  | 0x004 => BitVec.ofNat 32 (s.scn.phase.code + s.scn.holdReq.toNat * 8 + s.scn.wdExp.isSome.toNat * 16
      + s.scn.stopReq.toNat * 32)
  | 0x008 => BitVec.ofNat 32 s.scn.cyc
  | 0x00C => BitVec.ofNat 32 (s.scn.cyc / 2 ^ 32)
  | 0x010 => BitVec.ofNat 32 (min s.scn.runCyc 0xFFFFFFFF)
  | 0x014 => BitVec.ofNat 32 s.scn.tstart
  | 0x028 => BitVec.ofNat 32 (s.forces.length + s.scn.forced.toNat * 0x800)
  | _ => s.reg a

/-- A register of page 0x07. -/
def State.shownFlk (s : State) (a off c : Nat) : Word :=
  match c with
  | 0x000 => BitVec.ofNat 32 (bitsOf 8 fun n => s.linkEnabled n && s.stations.any fun e => e.1 / 32 == n)
  | 0x044 => BitVec.ofNat 32 (bitsOf 32 fun k => match s.stn ((off - 0x40) / 0x20 * 32 + k) with
      | some x => x.isUp
      | none => false)
  | _ => s.reg a

/-- A register of page 0x08. -/
def State.shownBea (s : State) (a off c : Nat) : Word :=
  match c with
  | 0x000 =>
    let all := s.bindings
    BitVec.ofNat 32 ((s.reg a).toNat / 16 * 16 % 0x2000 + bitsOf 4 s.locked + (all.any fun b => !b.effective all).toNat * 0x2000)
  | 0x01C => BitVec.ofNat 32 (s.phase ((off - 0x010) / 0x10))
  | 0x050 => BitVec.ofNat 32 (min (s.freq ((off - 0x050) / 4)) 0xFFFFFF)
  | _ => s.reg a

/-- A register of page 0x0A. -/
def State.shownOlc (s : State) (a off c : Nat) : Word :=
  match c with
  | 0x000 => BitVec.ofNat 32 ((!s.olc.digA.isEmpty).toNat + (!s.olc.digB.isEmpty).toNat * 2 + (!s.olc.digJ.isEmpty).toNat * 4
      + s.olc.commit.isSome.toNat * 8 + (!s.olc.consts.isEmpty).toNat * 32 + (if s.str.step < 9 then 0 else s.str.gen) * 64)
  | 0x020 => BitVec.ofNat 32 (word32 (if s.olc.digA.isEmpty then s.olc.digJ else s.olc.digA) (off - 0x020))
  | 0x040 => BitVec.ofNat 32 (word32 (if s.olc.digB.isEmpty then s.olc.digJ else s.olc.digB) (off - 0x040))
  | _ => s.reg a

/-- SIL in µs (R388). -/
def State.sil (s : State) : Nat := max (s.f Reg.BCN_TIME 15 0) (2 * s.bcn.lastLen)

/-- A good Beacon frame arrived within SIL (R398). -/
def State.partnerSeen (s : State) : Bool :=
  match s.bcn.lastRx with
  | some t => decide (s.clk.us < t + s.sil)
  | none => false

/-- A good DIR 0 request was seen within BUSQ (R389). -/
def State.busLive (s : State) : Bool :=
  match s.bcn.busSeen with
  | some t => decide (s.clk.us < t + s.f Reg.BCN_TIME 31 16)
  | none => false

/-- CHAIN_CONFIG is in force, and this member is the master (R395). -/
def State.chainId (s : State) : Nat := s.f Reg.PWR_STRAP 2 0
def State.chainMaster (s : State) : Bool := bit (s.reg Reg.CHN_CFG) 8 && decide (s.chainId = 0)

/-- The reply status of slot n (R408). -/
def State.replyStatus (s : State) (n : Nat) : Word :=
  let x := s.slot n
  match x.st with
  | 0 => 0
  | 3 => BitVec.ofNat 32 (x.code + x.tag * 2 ^ 8 + x.rlen * 2 ^ 16 + 3 * 2 ^ 22 + x.consumed.toNat * 2 ^ 24
      + x.restart.toNat * 2 ^ 25)
  | st => BitVec.ofNat 32 (rPENDING + x.tag * 2 ^ 8 + st * 2 ^ 22)

/-- The slots that are submitted or in progress. -/
def State.busySlots (s : State) : Nat := bitsOf 16 fun n => decide ((s.slot n).st = 1) || decide ((s.slot n).st = 2)

/-- A register of page 0x0D. -/
def State.shownHst (s : State) (a off c : Nat) : Word :=
  match c with
  | 0x004 => BitVec.ofNat 32 (s.hst.next + s.hst.isOpen.toNat * 16 + s.busySlots * 2 ^ 16)
  | 0x014 => match s.hst.expertUntil with
    | some t => if s.clk.us < t then BitVec.ofNat 32 (1 + (t - s.clk.us + 999999) / 1000000 * 256) else 0
    | none => 0
  | 0x040 => s.replyStatus ((off - 0x040) / 4)
  | _ => s.reg a

/-- A register of page 0x0E. -/
def State.shownDbg (s : State) (a c : Nat) : Word :=
  match c with
  | 0x000 => BitVec.ofNat 32 (s.dbgLevel + s.dbg.conn.toNat * 4 + (decide (s.core.halt = .debug)).toNat * 8
      + s.dbg.hreq.isSome.toNat * 16 + s.dbg.step.isSome.toNat * 32 + s.f a 6 6 * 64
      + (s.dbg.ctx.getD 0) * 256 + (decide (s.core.halt = .debug) && s.dbg.ctx.isNone).toNat * 0x4000)
  | 0x004 => match s.dbg.grant with
    | some g => BitVec.ofNat 32 (g.level + g.wdhold.toNat * 4 + g.slot * 8 + g.last * 2 ^ 16)
    | none => 0
  | _ => s.reg a

/-- Class c is lasting: for classes 13 to 15, a station of it is (R460). -/
def State.lasting (s : State) (c : Nat) : Bool := s.flt.ents.any fun e => e.1 / 1024 == c && s.entLasting c e.2

/-- FLT_CNTc. -/
def State.fltCnt (s : State) (c : Nat) : Word :=
  let tot := s.f (Reg.FLT_CNT + 4 * c) 23 0
  let n := if 13 ≤ c ∧ c ≤ 15 then Config.stationClassN c tot % 128
    else min (inWindow (s.bucketOf c s.flt.ft) (s.fltEnt c 0).buckets) 127
  BitVec.ofNat 32 (tot + n * 2 ^ 24 + (s.lasting c).toNat * 2 ^ 31)

/-- A register of page 0x10. -/
def State.shownFlt (s : State) (a off c : Nat) : Word :=
  match c with
  | 0x000 => BitVec.ofNat 32 (bitsOf 32 s.lasting)
  | 0x008 => BitVec.ofNat 32 (min ((s.dbg.wdLeft.getD s.wdtLeft) / 1000) 0xFFFF)
  | 0x200 => s.fltCnt ((off - 0x200) / 4)
  | _ => s.reg a

/-- The whole value of a register as Lantern, the host and a debugger read it. -/
def State.shown (s : State) (a : Nat) : Word :=
  let p := pageOf a
  let off := offOf a
  let c := canonOff p off
  match p with
  | 0x00 => match c with
    | 0x000 => setFld (s.reg a) 23 16 Config.stepping
    | 0x004 => BitVec.ofNat 32 (Config.romVersion % 65536)
    | _ => s.reg a
  | 0x01 => s.shownCar a off c
  | 0x02 => s.shownPip a c
  | 0x03 => if c = 0x008 then BitVec.ofNat 32 ((decide (s.core.halt = .stranded)).toNat
      + (decide (s.core.halt = .lockup)).toNat * 2 + (decide (s.f Reg.EXC_MCPEND 6 0 ≠ 0)).toNat * 4)
    else if c = 0x00C then setFld (setFld (s.reg a) 14 0 (s.f a 14 0 + s.core.lantern.depth))
      30 16 (max (s.f a 30 16) s.core.lantern.peak)
    else s.reg a
  | 0x04 => if c = 0x040 then BitVec.ofNat 32 s.oemEntries else s.reg a
  | 0x06 => s.shownScn a c
  | 0x07 => s.shownFlk a off c
  | 0x08 => s.shownBea a off c
  | 0x09 => match c with
    | 0x004 => BitVec.ofNat 32 (s.f a 0 0 + ((List.range 64).any s.hasInert).toNat * 2)
    | 0x014 => s.entry (s.f Reg.GOV_TADDR 11 0)
    | _ => s.reg a
  | 0x0A => s.shownOlc a off c
  | 0x0B => if c = 0x010 then BitVec.ofNat 32 (s.bcn.role + s.partnerSeen.toNat * 8 + s.bcn.rxlock.toNat * 16 + s.f a 5 5 * 32
      + s.busLive.toNat * 64 + s.bcn.lastDiv * 256) else s.reg a
  | 0x0C => match c with
    | 0x00C => BitVec.ofNat 32 (s.chainId + s.chainMaster.toNat * 8 + s.chn.alone.toNat * 16 + s.chn.ringok.toNat * 32
        + s.chn.rxlock.toNat * 64)
    | 0x010 => BitVec.ofNat 32 s.chn.rnd
    | _ => s.reg a
  | 0x0D => s.shownHst a off c
  | 0x0E => s.shownDbg a c
  | 0x0F => if c = 0x004 then setFld (s.reg a) 5 2 s.log.side.length else s.reg a
  | 0x10 => s.shownFlt a off c
  | 0x11 => if c = 0x004 then s.pwrStat else s.reg a
  | 0x12 => match c with
    | 0x030 => BitVec.ofNat 32 s.clk.us
    | 0x034 => BitVec.ofNat 32 s.clk.timeHi
    | _ => s.reg a
  | 0x13 => match c with
    | 0x000 => BitVec.ofNat 32 (s.str.step + (decide (s.str.step ≠ 15)).toNat * 16 + s.str.halt.toNat * 32)
    | 0x100 => BitVec.ofNat 32 (word32 s.recordBytes (off - 0x100))
    | _ => s.reg a
  | _ => s.reg a

/-- The bits of a register that a context's read returns; the others read 0 and no read side effect happens to them
(R60, R61, R86, R156, R184, R209, R231, R254, R266, R294, R321, R347, R348, R371, R402, R403, R447, R464). -/
def ctxSees (a : Nat) : Word :=
  let c := canonOff (pageOf a) (offOf a)
  let all : Word := 0xFFFFFFFF
  match pageOf a with
  | 0x00 => all
  | 0x01 => if c = 0x000 then 0xFFFFFF7F else if c = 0x020 ∨ c = 0x024 ∨ c = 0x028 then 0 else all
  | 0x02 => if c = 0x000 then all else 0
  | 0x03 => if c = 0x008 then 3 else if 0x00C ≤ c ∧ c ≤ 0x018 then 0 else all
  | 0x04 => if c = 0x004 ∨ c = 0x008 ∨ c = 0x010 ∨ c = 0x014 then 0 else all
  | 0x05 => if c = 0x000 ∨ c = 0x004 then all else 0
  | 0x06 => if c = 0x004 ∨ 0x030 ≤ c then 0 else all
  | 0x07 => if c = 0x040 then all else 0
  | 0x08 => if c = 0x000 ∨ c = 0x01C ∨ c = 0x050 ∨ (0x340 ≤ c ∧ c < 0x400) then 0 else all
  | 0x09 => if c = 0x004 ∨ c = 0x10C then 0 else all
  | 0x0A => if c = 0x008 ∨ c = 0x00C then all else 0
  | 0x0E => if c = 0x008 then all else 0
  | _ => 0

/-! ### Reads (R5, R6) -/

/-- The RC fields of a register become 0. -/
def clearRC (w : Word) (fs : List Fld) : Word := fs.foldl (fun w f => if f.acc = .RC then setFld w f.hi f.lo 0 else w) w

/-- Lantern's share of a PIP counter, or of EXC_LSP.PEAK, is cleared with it. -/
def State.clearShare (s : State) (a : Nat) : State :=
  if a = Reg.EXC_LSP then { s with core := { s.core with lantern := { s.core.lantern with peak := 0 } } }
  else if Reg.PIP_ICMISS ≤ a ∧ a ≤ Reg.PIP_FWD then
    { s with core := { s.core with lantern := { s.core.lantern with
      counts := s.core.lantern.counts.set ((a - Reg.PIP_ICMISS) / 4) 0 } } }
  else s

/-- The side effects of a live read: RC fields clear, and a reply is consumed (R408). CAR_LATMAX forgets what it has measured. -/
def State.liveRead (s : State) (a : Nat) : State :=
  let off := offOf a
  if pageOf a = 0x0D ∧ 0x040 ≤ off ∧ off < 0x080 then
    let n := (off - 0x040) / 4
    let x := s.slot n
    if x.st = 3 then s.setSlot n { x with consumed := true } else s
  else if a = Reg.CAR_LATMAX then { s with car := { s.car with measured := 0 } }
  else (s.clearShare a).setReg a (clearRC (s.reg a) (fieldsAt a))

/-- A read of CLK_TIMELO latches the bits that the next read of CLK_TIMEHI returns (R61). -/
def State.latchTime (s : State) (a : Nat) : State :=
  if a = Reg.CLK_TIMELO then { s with clk := { s.clk with timeHi := s.clk.us / 2 ^ 32 % 65536 } } else s

/-- Read a register whose domain serves, live or quiet; a context's read hides what ctxSees gives. DEDUCED: a quiet read
performs no side effect of an RQ or RC field (R6); CLK_TIMELO.TIME is RO, and every read of it latches CLK_TIMEHI (R61), that
of a context apart, which returns 0. -/
def State.readReg (s : State) (who : Writer) (live : Bool) (a : Nat) : Word × State :=
  match who with
  | .context => (s.shown a &&& ctxSees a, if ctxSees a = 0 then s else s.liveRead a)
  | .lantern => (s.shown a, s.latchTime a)
  | _ => (s.shown a, (if live then s.liveRead a else s).latchTime a)

/-! ### Levels and values of a write (R5, R9) -/

/-- A write of v over the value old sets an E field. -/
def setsE (old v : Word) (fs : List Fld) : Bool :=
  fs.any fun f => decide (f.lvl = .E) && match f.acc with
    | .RW => decide (fld v f.hi f.lo ≠ fld old f.hi f.lo)
    | .WO => decide (fld v f.hi f.lo ≠ 0)
    | .W1C => decide (fld (v &&& old) f.hi f.lo ≠ 0)
    | _ => false

/-- The value that a write leaves by the access codes alone. -/
def written (old v : Word) (fs : List Fld) : Word :=
  fs.foldl (fun w f => match f.acc with
    | .RW => setFld w f.hi f.lo (fld v f.hi f.lo)
    | .W1C => setFld w f.hi f.lo (fld (old &&& ~~~v) f.hi f.lo)
    | _ => w) old

/-- The value w with field [hi:lo] put back to its value in old unless it lies in a range. -/
def keepIn (old w : Word) (hi lo least most : Nat) : Word :=
  if least ≤ fld w hi lo ∧ fld w hi lo ≤ most then w else setFld w hi lo (fld old hi lo)

/-- The fields whose new value lies outside the range of its register's table keep their value. -/
def legal (a : Nat) (chainId : Nat) (old w : Word) : Word :=
  let k := keepIn old
  match pageOf a, canonOff (pageOf a) (offOf a) with
  | 0x01, 0x004 => k (k w 10 0 8 1024) 23 16 8 255
  | 0x03, 0x004 => k w 15 0 64 65535
  | 0x06, 0x018 => k (k w 15 0 1 65535) 31 16 1 65535
  | 0x06, 0x024 => k w 15 0 256 65535
  | 0x07, 0x040 => k (k (k (k w 3 1 0 4) 7 4 1 15) 15 8 33 255) 23 16 8 255
  | 0x08, 0x018 => k w 23 0 4 0xFFFFFF
  | 0x08, 0x100 => k w 31 16 1 65535
  | 0x09, 0x100 => k (k w 6 0 0 64) 9 8 0 2
  | 0x09, 0x104 => k (k w 15 0 1 65535) 25 16 1 1000
  | 0x09, 0x108 => k w 15 0 1 65535
  | 0x0A, 0x004 => k (k w 15 0 1 65535) 31 16 1 65535
  | 0x0B, 0x004 => k (k w 15 0 100 65535) 31 16 100 65535
  | 0x0B, 0x008 => k (k w 15 0 64 65535) 23 16 1 255
  | 0x0B, 0x00C => k (k (k w 7 0 16 255) 11 8 1 15) 18 12 10 100
  | 0x0C, 0x000 => if bit w 0 && bit w chainId then w else setFld w 7 0 (fld old 7 0)
  | 0x0C, 0x004 => k w 12 0 0 8128
  | 0x0E, 0x040 => k (k w 2 0 0 4) 9 5 0 22
  | 0x10, 0x004 => k w 15 0 10 65535
  | 0x10, 0x100 =>
    let c := (a - Reg.FLT_CFG) / 4
    if 1 ≤ fld w 21 0 ∧ fld w 21 0 ≤ 3600000 ∧ 1 ≤ fld w 29 22 ∧ (fld w 31 30 ≠ 3 ∨ (13 ≤ c ∧ c ≤ 15)) then w else old
  | 0x11, 0x00C => k w 7 0 1 255
  | 0x13, 0x004 => k w 1 0 0 2
  | _, _ => w

/-! ### What a write sets off -/

/-- A target of PWR_CTRL that POWER_STATE and a direct write both refuse: R46, R24, and the target of a pending
commit (R370). -/
def State.refusesDom (s : State) (n tgt : Nat) : Bool :=
  s.forbidden n tgt || (decide (tgt = 2) && match s.olc.commit with
    | some c => (targetPds c.target).contains n
    | none => false)

/-- Block sleep is asked for, by a POWER_STATE in a slot or by PWR_CTRL: only from STOP, and not while KEEP_CLK is lost (R44,
R53). DESIGN CHOICE: PWR_CTRL.SLEEP written otherwise is ignored and sets no PWR_FAULT.REJ. -/
def State.askSleep (s : State) (slot : Option Nat) : State :=
  if s.scn.mode = .stop ∧ !bit s.clk.lost 7 ∧ s.pwr.sleep = .awake then
    { s with pwr := { s.pwr with sleep := .entering, sleepAt := s.clk.us, sleepSlot := slot } }
  else s

/-- A write of PWR_CTRL (R46, R53). DESIGN CHOICE: a field written with the non-zero target that it holds makes no request, so
that a word written back for one field asks nothing of the others; and a POWER_STATE that waits for another state of the domain, which
the write takes back, is answered ABORTED. -/
def State.writePwrCtrl (s : State) (v : Word) : State :=
  let s := (rangeFrom 1 11).foldl (fun s n =>
    let tgt := fld v (2 * n + 1) (2 * n)
    if tgt = s.f Reg.PWR_CTRL (2 * n + 1) (2 * n) ∧ tgt ≠ 0 then s
    else if s.forbidden n tgt then s.setB Reg.PWR_FAULT 12
    else ((s.setF Reg.PWR_CTRL (2 * n + 1) (2 * n) tgt).requestDom n tgt).finishJob
      (fun j => j.op == 0x48 && j.args.head? == some n && j.args != [n, tgt]) rABORTED) s
  if bit v 24 then s.askSleep none else s

/-- A write of PWR_RST (R54, R55). -/
def State.writePwrRst (s : State) (v : Word) : State :=
  if fld v 31 24 ≠ 0xA5 then s
  else if bit v 16 then s.blockReset causeRstreq
  else ([4, 5, 6, 7].filter fun n => bit v n).foldl State.domainReset s
    |> fun s => ([9, 10, 11].filter fun n => bit v n).foldl State.domainReset s

/-- CAR_CINIT refuses context n (R187). -/
def State.cinitOne (s : State) (n : Nat) : State :=
  if s.car.running = some n ∨ (n = 0 ∧ s.scn.mode ≠ .stop) then (s.setB Reg.CAR_ERR 1).setF Reg.CAR_ERR 13 8 n
  else (s.initRoutine n).initCtx n

/-- A write of CAR_CINIT. -/
def State.writeCinit (s : State) (v : Word) : State :=
  if fld v 31 24 ≠ 0xA5 then s
  else if bit v 8 then (rangeFrom 1 63).foldl State.cinitOne s
  else s.cinitOne (fld v 5 0)

/-- A write of STR_CLEAR (R86). -/
def State.writeStrClear (s : State) (v : Word) : State :=
  if fld v 31 24 ≠ 0xA5 then s else
  let s := (List.range 10).foldl (fun s n => if bit v n then s.setStep n { s.stepRec n with count := 0 } else s) s
  if bit v 10 then { s with str := { s.str with mapout := 0 } } else s

/-- FAULT_COUNTERS with CLEAR, and FLT_CLR (R461). -/
def State.clearFaults (s : State) : State :=
  let s := { s with flt := { s.flt with ents := [] } }
  (List.range 32).foldl (fun s c => s.setReg (Reg.FLT_CNT + 4 * c) 0) s

/-- A submission of slot n (R407); true where it submits. -/
def State.submit (s : State) (n : Nat) : Bool × State :=
  let x := s.slot n
  if x.st = 1 ∨ x.st = 2 then (false, s.setB Reg.HST_ERR 0) else
  let s := if x.st = 3 ∧ !x.consumed then s.setB Reg.HST_ERR 2 else s
  (true, s.setSlot n { st := 1, tag := (s.byte (slotAddr n + 1)).toNat })

/-- A write of HST_DOORBELL (R407). -/
def State.writeDoorbell (s : State) (v : Word) : State :=
  let r := (List.range 16).foldl (fun (r : Bool × State) n =>
    if bit v n then let q := r.2.submit n; (r.1 || q.1, q.2) else r) (false, s)
  let s := if r.1 then r.2.fire 80 else r.2
  (List.range 8).foldl (fun s k => if bit v (16 + k) then s.fire (80 + k) else s) s

/-- The role that BCN_CFG.EN and PAIR_ROLE give (R372). -/
def State.configuredRole (s : State) : Nat :=
  if s.f Reg.BCN_CFG 0 0 = 0 then 0 else if s.f Reg.PWR_STRAP 3 3 = 1 then 1 else 2

/-- STANDBY_CONFIG applied in STOP sets the role (R372). -/
def State.setRole (s : State) : State :=
  if s.configuredRole = s.role then s
  else { s with bcn := { s.bcn with role := s.configuredRole, sync := false, expect := none, held := [], nak := false, resync := .none, dirty := [] } }

/-- Write one member entry, in PD7 and in the copy in KB (R337, R345). -/
def State.setEntry (s : State) (i : Nat) (v : Word) : State :=
  { s with
    gov := { s.gov with tab := Map.set (fun _ => 0) s.gov.tab i (v &&& 0x07FFFFFF) }
    flk := { s.flk with tab := Map.set (fun _ => 0) s.flk.tab i (v &&& 0x07FFFFFF) } }

/-- A write of a governor register takes effect (R338, R345). -/
def State.applyGovReg (s : State) (a : Nat) (v : Word) : State :=
  let w := legal a 0 (s.reg a) (written (s.reg a) v (fieldsAt a))
  if a = Reg.GOV_TDATA then s.setEntry (s.f Reg.GOV_TADDR 11 0) v
  else if a = Reg.GOV_CTRL then
    let s := s.setCfgReg a w
    if bit w 0 then s.govRestart else s
  else s.setCfgReg a w

/-- CNT of source n stands below BEA_CPRn (R325). DESIGN CHOICE: where a new CPR is not above it, it is taken modulo CPR. -/
def State.wrapCount (s : State) (n : Nat) : State :=
  let x := s.src n
  let cpr := s.f (Reg.BEA_CPR + 0x10 * n) 23 0
  if x.cnt < cpr then s else s.setSrc n { x with cnt := x.cnt % cpr }

/-- A write of a Beat register takes effect (R345). -/
def State.applyBeaReg (s : State) (a : Nat) (v : Word) : State :=
  let w := legal a 0 (s.reg a) (written (s.reg a) v (fieldsAt a))
  let off := offOf a
  if 0x010 ≤ off ∧ off < 0x050 ∧ off % 16 = 0 then (s.setScfg ((off - 0x010) / 16) w).setCfgReg a w
  else if 0x010 ≤ off ∧ off < 0x050 ∧ off % 16 = 8 then (s.setCfgReg a w).wrapCount ((off - 0x010) / 16)
  else (s.setCfgReg a w).rebind s.phased

/-- The configuration of a page may be written directly: STOP, and not by a standby (R345, R373). -/
def State.cfgOpen (s : State) : Bool := decide (s.scn.mode ≠ .run) && decide (s.scn.mode ≠ .hold) && !s.standby

/-- A write of SCN_CTRL, SCN_WDOG or SCN_CYCWARN by the host or Lantern is in force at once, GDET apart; a context's or a debugger's
waits for the next cycle start (R281, R294). -/
def State.scnAtOnce (s : State) (who : Writer) (a : Nat) : State :=
  if who ≠ .host ∧ who ≠ .lantern then s else
  let safe := s.sendsSafe
  let scn : Scn :=
    if a = Reg.SCN_CTRL then { s.scn with stopOut := bit (s.reg a) 1, hsafe := bit (s.reg a) 2 }
    else if a = Reg.SCN_WDOG then { s.scn with wdog := s.reg a }
    else { s.scn with cycwarn := fld (s.reg a) 23 0 }
  State.safeFrom { s with scn := scn } safe

/-- A write of a register of CAR or PIP takes effect: its new value w by R5 and its ranges, and the value v written. -/
def State.effectCarPip (s : State) (a off c : Nat) (v w : Word) : State :=
  match pageOf a, c with
  | 0x01, 0x00C => s.writeCinit v
  | 0x01, 0x040 => (s.setReg a w).restartTimer ((off - 0x040) / 4)
  | 0x01, 0x400 => s.updCtx ((off - 0x400) / 4) fun x => { x with prio := fld v 3 0 }
  | 0x01, 0x810 =>
    let n := (off - 0x800) / 32
    if s.core.fpown = some n then (s.setB Reg.CAR_ERR 2).setF Reg.CAR_ERR 13 8 n else s.setReg a w
  | 0x02, 0x000 =>
    let s := s.setReg a w
    let s := if bit v 3 then { s with core := { s.core with
        icache := [], lineBuf := none, badPar := s.core.badPar.filter fun e => decide (e.1 = .data) } } else s
    let s := if bit v 4 then { s with core := { s.core with
        dcache := [], badPar := s.core.badPar.filter fun e => decide (e.1 ≠ .data) } } else s
    if bit v 5 then s.clearPrediction else s
  | _, _ => s.setReg a w

/-- The same for FLK, BEA and GOV (R320, R329, R345). -/
def State.effectField (s : State) (who : Writer) (a off c : Nat) (v w : Word) : State :=
  match pageOf a, c with
  | 0x07, 0x040 =>
    if s.scn.mode = .run ∨ s.scn.mode = .hold then s.setB Reg.FLK_ERR (8 + (off - 0x040) / 0x20)
    else (s.setCfgReg a w).linkSummary ((off - 0x040) / 0x20)
  | 0x07, _ => s.setReg a w
  | 0x08, 0x104 => s.setReg a w
  | 0x08, 0x000 => s.setReg a w
  | 0x08, _ =>
    if (fieldsAt a).all (fun f => f.acc != .RW) then s
    else if who = .lantern ∨ s.cfgOpen then s.applyBeaReg a v
    else if s.scn.mode = .run ∨ s.scn.mode = .hold then s.setB Reg.BEA_STAT 12 else s
  | _, 0x004 => s.setReg a w
  | _, 0x010 => s.setReg a w
  | _, _ =>
    if (fieldsAt a).all (fun f => f.acc != .RW) then s
    else if who = .lantern ∨ s.cfgOpen then s.applyGovReg a v
    else if s.scn.mode = .run ∨ s.scn.mode = .hold then s.setB Reg.GOV_STAT 0 else s

/-- The same for the pages of the pair, the host, debug, the log and the keeper domain. -/
def State.effectRest (s : State) (who : Writer) (a c : Nat) (v w : Word) : State :=
  match pageOf a, c with
  | 0x04, 0x00C => s.mcsReload v true
  | 0x06, 0x000 =>
    let s := s.setReg a w
    let s := if bit v 3 then s.stampBreak else s
    s.scnAtOnce who a
  | 0x06, 0x018 => (s.setReg a w).scnAtOnce who a
  | 0x06, 0x020 => (s.setReg a w).scnAtOnce who a
  | 0x0B, 0x000 => if s.scn.mode = .stop ∧ s.role ≤ 2 then (s.setReg a w).setRole else s
  | 0x0B, 0x004 => if s.scn.mode = .stop ∧ s.role ≤ 2 then s.setReg a w else s
  | 0x0B, 0x008 => if s.scn.mode = .stop ∧ s.role ≤ 2 then s.setReg a w else s
  | 0x0C, _ => if s.scn.mode = .stop ∧ s.role ≤ 2 then s.setReg a w else s
  | 0x0D, 0x000 => s.writeDoorbell v
  | 0x0E, 0x010 =>
    let was := s.traceOn
    let s := s.setReg a w
    if !was && s.traceOn then s.traceSync else s
  | 0x10, 0x00C => if fld v 31 24 = 0xA5 ∧ bit v 0 then s.clearFaults else s
  | 0x11, 0x000 => s.writePwrCtrl v
  | 0x11, 0x010 => s.writePwrRst v
  | 0x12, 0x004 =>
    let old := s.reg a
    let s := s.setReg a w
    if old = w then s else s.irq 3
  | 0x13, 0x008 => s.writeStrClear v
  | _, _ => s.setReg a w

/-- A write takes effect. -/
def State.effect (s : State) (who : Writer) (a : Nat) (v : Word) : State :=
  let off := offOf a
  let c := canonOff (pageOf a) off
  let w := legal a s.chainId (s.reg a) (written (s.reg a) v (fieldsAt a))
  match pageOf a with
  | 0x01 => s.effectCarPip a off c v w
  | 0x02 => s.effectCarPip a off c v w
  | 0x07 => s.effectField who a off c v w
  | 0x08 => s.effectField who a off c v w
  | 0x09 => s.effectField who a off c v w
  | _ => s.effectRest who a c v w

/-! ### Writes (R9, R10) -/

/-- Expert access is unlocked (R418). -/
def State.expert (s : State) : Bool :=
  match s.hst.expertUntil with
  | some t => decide (s.clk.us < t)
  | none => false

/-- A write to a replicated page by the host or a debugger reaches the standby as a REGW item (R383): a context's own write is
replayed with its program, and Lantern's come of commands that have items of their own. -/
def State.tellRegw (s : State) (who : Writer) (a : Nat) (v : Word) : State :=
  let p := pageOf a
  if (who = .host ∨ who = .debugger) ∧ (p = 0x01 ∨ (0x06 ≤ p ∧ p ≤ 0x09)) then
    s.tell 9 [BitVec.ofNat 64 (p + offOf a * 256 + v.toNat * 2 ^ 32)]
  else s

/-- The registers that a debugger may write: all at the full level; at non-invasive DBG_TRCTRL, DBG_CHIMEEN and the
comparators with an ACTION up to EVENT (R429). -/
def State.dbgMay (s : State) (a : Nat) (v : Word) : Bool :=
  decide (s.dbgLevel = 2) || decide (a = Reg.DBG_TRCTRL) || decide (a = Reg.DBG_CHIMEEN)
    || (decide (Reg.DBG_CMP ≤ a) && decide (a < Reg.DBG_CMP + 0x80)
      && (decide ((a - Reg.DBG_CMP) % 0x10 ≠ 0) || decide (fld v 2 0 ≤ 2)))

/-- Write a register whose domain serves; a write that changes nothing is not told to a standby. The answer is that of the host port: 0 OK, 1 ERROR. -/
def State.writeReg (s : State) (who : Writer) (a : Nat) (v : Word) : State × Nat :=
  let fs := fieldsAt a
  if fs.isEmpty then (s, 0)
  else if who ≠ .lantern && setsE (s.shown a) v fs && !s.expert then (s, if who = .host then 1 else 0)
  else if who = .context && decide (pageOf a = 0x0E) && decide (a ≠ Reg.DBG_VSTEP) then (s, 0)
  else
    let s' := s.effect who a v
    (if s'.shown a = s.shown a ∧ a ≠ Reg.CAR_CINIT then s' else s'.tellRegw who a v, 0)

/-- An access of a register from outside the core: the page's domain is woken from DOZE, or the answer is DOMAIN_OFF
(R21, R50). -/
def State.accessWrite (s : State) (who : Writer) (a : Nat) (v : Word) : State × Nat :=
  let d := pageDomain (pageOf a)
  if !s.serves d then (s.domainOff, 2) else (s.touch d).writeReg who a v

/-- The same for a read; what is not answered OK reads 0. -/
def State.accessRead (s : State) (who : Writer) (live : Bool) (a : Nat) : Word × State × Nat :=
  let d := pageDomain (pageOf a)
  if !s.serves d then (0, s.domainOff, 2)
  else
    let r := (s.touch d).readReg who live a
    (r.1, r.2, 0)

end Sys2Proof.Machine
end

