-- ==== Sys2Proof/Machine/Bus.lean ====
section
/-! DEFINITION. The fabric as the core port sees it: the store buffer (R166), and the caches' tags (R163, R165). -/

namespace Sys2Proof.Machine

/-! ### Store buffer (R166, R178) -/

/-- Write one store-buffer entry to its bank or register page. -/
def State.drainEntry (s : State) (e : SbEntry) : State :=
  let d := domainOf e.pa
  if regionOf e.pa = .reserved then s
  else if !s.serves d then (s.domainOff).mcheck 3 e.issuer e.pa
  else if regionOf e.pa = .regs then
    ((s.touch d).writeReg (if e.issuer.isNone then .lantern else .context) e.pa e.data).1
  else
    match (s.touch d).eccRead e.pa 0 with
    | (false, s) => s.mcheck 1 e.issuer e.pa
    | (true, s) => s.bankStore e.pa e.size e.data.toNat 0

/-- The oldest store-buffer entry drains. -/
def State.drainOne (s : State) : State :=
  match s.core.sb with
  | [] => s
  | e :: t => ({ s with core := { s.core with sb := t } }).drainEntry e

/-- The n oldest entries drain, oldest first. -/
def State.drainN (s : State) : Nat → State
  | 0 => s
  | n + 1 => (s.drainOne).drainN n

/-- Every entry drains. -/
def State.drainAll (s : State) : State := s.drainN s.core.sb.length

/-- Buffered stores to the image bank. -/
def State.ibWaiting (s : State) : Nat := (s.core.sb.filter fun e => decide (regionOf e.pa = .ib)).length

/-- From s to t a buffered store to the image bank would drain while the image engine holds the bank. -/
def State.drainStalls (s t : State) : Bool := s.imageHeld && decide (t.ibWaiting < s.ibWaiting)

/-- What the core does from s to t: where a buffered store to the image bank would drain while the engine holds it, the core stalls
(R19, R293). -/
def State.unlessDrained (s t : State) : State := if s.drainStalls t then s else t

/-- Two byte ranges overlap. -/
def overlap (a an b bn : Nat) : Bool := decide (a < b + bn) && decide (b < a + an)

/-- What a load of size n at a finds among the older stores (R167). -/
inductive SbHit where
  | none
  | forward (v : Word)
  | partialOverlap
  deriving DecidableEq, Repr

/-- The youngest overlapping store decides (R167). -/
def State.sbHit (s : State) (a n : Nat) : SbHit :=
  match s.core.sb.reverse.find? fun e => overlap a n e.pa e.size with
  | Option.none => .none
  | some e => if e.pa = a ∧ e.size = n then .forward e.data else .partialOverlap

/-- How many of the oldest entries must drain before no entry satisfies a test. -/
def drainCount (p : SbEntry → Bool) : List SbEntry → Nat
  | [] => 0
  | e :: t => let k := drainCount p t
    if k ≠ 0 then k + 1 else if p e then 1 else 0

/-! ### Caches (R163, R165, R170, R182) -/

/-- The region is cacheable for a context (R165). -/
def State.cacheable (s : State) (a : Nat) : Bool :=
  match regionOf a with
  | .db => true
  | .sb => true
  | .cba => s.activeBank a
  | .cbb => s.activeBank a
  | _ => false

/-- The instruction cache caches the active code bank, or both when they are joined; a fetch from another region goes through the
line buffer only (R163). -/
def State.iCacheable (s : State) (a : Nat) : Bool := s.activeBank a

/-- A line of KB or the boot ROM, which the caches hold for Lantern (R163, R165). -/
def lanternLine (a : Nat) : Bool := decide (regionOf a = .kb) || decide (regionOf a = .rom)

/-- A fill of a line would deliver it now: its domain is in RUN, no word of it is bad, and its half is not mapped out (R258, R264). -/
def State.fillable (s : State) (line : Nat) : Bool :=
  s.inRun (domainOf (32 * line)) && !s.mappedOut (32 * line)
    && (List.range 4).all fun i => decide (s.eccAt (32 * line + 8 * i) = .none)

/-- A cache set after its line has been used: the line most recently used first, two ways. -/
def useLine (l : Nat) (ways : List Nat) : List Nat := (l :: ways.filter (· != l)).take 2

/-- The lines of a set. -/
def cacheSet (m : List (Nat × List Nat)) (k : Nat) : List Nat := Map.get (fun _ => []) m k

/-- The cache of `sets` sets holds a line. -/
def cacheHas (sets : Nat) (m : List (Nat × List Nat)) (line : Nat) : Bool := (cacheSet m (line % sets)).contains line

/-- Marks of bad parity go with the lines that carried them (R182). -/
def Core.heldMarks (c : Core) : Core :=
  { c with badPar := c.badPar.filter fun e => match e.1 with
      | .instr => cacheHas 256 c.icache e.2
      | .data => cacheHas 128 c.dcache e.2
      | .lineBuf => c.lineBuf == some e.2 }

/-- A line becomes its set's most recently used, the least recently used of three leaving. -/
def cacheUse (sets : Nat) (m : List (Nat × List Nat)) (line : Nat) : List (Nat × List Nat) :=
  Map.set (fun _ => []) m (line % sets) (useLine line (cacheSet m (line % sets)))

/-- A line leaves the cache. -/
def cacheDrop (sets : Nat) (m : List (Nat × List Nat)) (line : Nat) : List (Nat × List Nat) :=
  Map.set (fun _ => []) m (line % sets) ((cacheSet m (line % sets)).filter (· != line))

/-- A line is dropped from where it is held. -/
def Core.dropLine (c : Core) (k : CacheId) (line : Nat) : Core :=
  match k with
  | .instr => { c with icache := cacheDrop 256 c.icache line }
  | .data => { c with dcache := cacheDrop 128 c.dcache line }
  | .lineBuf => { c with lineBuf := none }

/-- A line with bad parity is invalidated on lookup, and counted (R182). -/
def State.parityDrop (s : State) (k : CacheId) (line : Nat) : State :=
  if (k, line) ∈ s.core.badPar then
    let s := { s with core := { s.core.dropLine k line with badPar := s.core.badPar.filter (· != (k, line)) } }
    (s.count Reg.PIP_CPAR).classify 3 0
  else s

/-- A fill of a line is under way. -/
def State.filling (s : State) (data : Bool) (line : Nat) : Bool := s.core.fills.any fun f => f.data == data && f.line == line

/-- The data cache holds the line of an address with good parity, or its fill is under way. -/
def State.dHit (s : State) (a : Nat) : Bool :=
  (cacheHas 128 s.core.dcache (a / 32) && decide ((CacheId.data, a / 32) ∉ s.core.badPar)) || s.filling true (a / 32)

/-- A load looks up the data cache; a miss requests the line fill. `wp` marks a load that does not retire. -/
def State.dLookup (s : State) (a : Nat) (wp : Bool := false) : State :=
  let line := a / 32
  let s := s.parityDrop .data line
  if cacheHas 128 s.core.dcache line then { s with core := { s.core with dcache := cacheUse 128 s.core.dcache line } }
  else if s.filling true line then s
  else
    let s := s.count Reg.PIP_DCMISS
    { s with core := { s.core with
        fills := s.core.fills ++ [⟨true, line, wp, if wp then none else some (a / 8), true, s.car.running⟩] } }

/-- The instruction cache holds a line, or its fill is under way. -/
def State.iHas (s : State) (line : Nat) : Bool := cacheHas 256 s.core.icache line || s.filling false line

/-- The line buffer or the instruction cache has the instruction at an address, with good parity. -/
def State.iHit (s : State) (a : Nat) : Bool :=
  let line := a / 32
  (decide (s.core.lineBuf = some line) && decide ((CacheId.lineBuf, line) ∉ s.core.badPar))
    || (cacheHas 256 s.core.icache line && decide ((CacheId.instr, line) ∉ s.core.badPar) && s.iCacheable a)

/-- Request an instruction line fill; `seen` is the word that the fetch itself has checked. -/
def State.iFill (s : State) (line : Nat) (seen : Option Nat) : State :=
  let s := s.count Reg.PIP_ICMISS
  { s with core := { s.core with fills := s.core.fills ++ [⟨false, line, false, seen, true, s.car.running⟩] } }

/-- The line buffer takes a line. -/
def State.takeLine (s : State) (line : Nat) : State := { s with core := ({ s.core with lineBuf := some line }).heldMarks }

/-- A line of the instruction cache becomes its set's most recently used. -/
def State.iUse (s : State) (line : Nat) : State :=
  { s with core := { s.core with icache := cacheUse 256 s.core.icache line } }

/-- The line buffer, else the instruction cache, gives the line of an address; a miss requests its fill. -/
def State.iAccess (s : State) (a : Nat) : State :=
  let line := a / 32
  let s := s.parityDrop .lineBuf line
  if s.core.lineBuf = some line then s else
  let s := s.parityDrop .instr line
  (if cacheHas 256 s.core.icache line then s.iUse line
    else if s.filling false line then s else s.iFill line (some (a / 8))).takeLine line

/-- From the last four slots of a line the next line is prefetched, within what SEG0 covers (R163). DESIGN CHOICE: the prefetch's
look-up that hits does not use the line. -/
def State.iPrefetch (s : State) (a last : Nat) : State :=
  let next := a / 32 + 1
  if 24 ≤ a % 32 ∧ next * 32 + 31 ≤ last ∧ s.f Reg.PIP_CTRL 2 2 = 0 ∧ s.iCacheable (next * 32) ∧ !s.mappedOut (next * 32) then
    let s := s.parityDrop .instr next
    if s.iHas next then s else s.iFill next none
  else s

/-- F reads the instruction at a physical address (R163). `last` is the last physical address that SEG0 covers. -/
def State.iLookup (s : State) (a last : Nat) : State :=
  if !s.iCacheable a then (s.parityDrop .lineBuf (a / 32)).takeLine (a / 32) else (s.iAccess a).iPrefetch a last

/-! ### Stores enter the buffer (R165, R166) -/

/-- A store looks up the data cache, which a bad line of its address leaves (R165, R182). -/
def State.storeLook (s : State) (a : Nat) : State := if s.cacheable a then s.parityDrop .data (a / 32) else s

/-- A word enters the buffer; a full buffer first drains its oldest entry (R166, R200). -/
def State.sbPut (s : State) (e : SbEntry) : State :=
  let s := (if 4 ≤ s.core.sb.length then s.drainOne else s).storeLook e.pa
  { s with core := { s.core with sb := s.core.sb ++ [e] } }

/-- Registers that a context's store has changed by its next instruction boundary (R184, R231, R441). -/
def atBoundary (a : Nat) : Bool := a == Reg.EXC_CTRL || a == Reg.EXC_GMLIM || a == Reg.PIP_CTRL || a == Reg.DBG_VSTEP

/-- A store enters the buffer as it retires, held in W while the buffer is full; PIP_SBFULL keeps the number of such holds (R166,
R184). DESIGN CHOICE: a store that hits leaves its line's place in the LRU order (R165 says only that it updates the line). -/
def State.pushStore (s : State) (e : SbEntry) : State :=
  let s := (if 4 ≤ s.core.sb.length then s.count Reg.PIP_SBFULL else s).sbPut e
  if atBoundary e.pa then s.drainAll else s

/-! ### What instructions leave that do not retire, and what Lantern's leave (R177, R180) -/

/-- The lines of a list that a cache holds are used, in order. -/
def cacheTouch (sets : Nat) (m : List (Nat × List Nat)) (ls : List Nat) : List (Nat × List Nat) :=
  ls.foldl (fun m l => if cacheHas sets m l then cacheUse sets m l else m) m

/-- The fills that cancelled instructions may have requested: of cacheable lines that are neither held nor under way, and of the
data cache only by an early launch (R169, R177). -/
def State.lawfulFills (s : State) (l : List (Bool × Nat)) : List Fill :=
  ((l.filter fun x => (if x.1 then s.cacheable (32 * x.2) else s.iCacheable (32 * x.2)) && !s.mappedOut (32 * x.2)
      && !s.filling x.1 x.2 && (if x.1 then decide (s.f Reg.PIP_CTRL 1 1 = 0) && !cacheHas 128 s.core.dcache x.2 else !cacheHas 256 s.core.icache x.2)).map
    fun x => ⟨x.1, x.2, x.1, none, false, s.car.running⟩).eraseDups

/-- The line buffer takes a line of a list, the last of those that a fetch of a context can bring there (R19, R104). -/
def State.lawfulLine (s : State) (l : List Nat) : Option Nat :=
  ((l.filter fun x => s.fillable x && match regionOf (32 * x) with
    | .cba => true
    | .cbb => true
    | .db => true
    | .sb => true
    | .xb => true
    | _ => false).getLast?).orElse fun _ => s.core.lineBuf

/-- The instructions in F and D behind a fault, a switch or a debug halt are cancelled. Which they are, and how far they have come,
no command tells: what they leave in the caches is a free value. -/
def State.cancelYounger (s : State) : State :=
  let k := s.free
  let s := s.tickFree
  { s with core := ({ s.core with
      icache := cacheTouch 256 s.core.icache (Config.cancelledFetches k)
      dcache := if s.f Reg.PIP_CTRL 1 1 = 0 then cacheTouch 128 s.core.dcache (Config.cancelledLoads k) else s.core.dcache
      fills := s.core.fills ++ s.lawfulFills (Config.cancelledFills k)
      lineBuf := s.lawfulLine (Config.cancelledLine k).toList }).heldMarks }

/-- One conditional branch of Lantern's trains the predictor (R173). -/
def Core.train (c : Core) (pc : Nat) (taken : Bool) : Core :=
  let k := pc / 2 % 1024
  let ctr := (Map.get (fun _ => (0 : BitVec 2)) c.bp k).toNat
  { c with
    bp := Map.set (fun _ => 0) c.bp k (BitVec.ofNat 2 (if taken then min 3 (ctr + 1) else ctr - 1))
    gh := (c.gh <<< 1) ||| BitVec.ofNat 8 taken.toNat }

/-- One indirect transfer writes its target (R174). -/
def Core.setTarget (c : Core) (pc target : Nat) : Core :=
  { c with itt := Map.set (fun _ => none) c.itt ((pc / 2 % 256) ^^^ c.gh.toNat) (some (target / 2 % 2 ^ 21)) }

/-- The bytes that Lantern's return stack takes, a free value within what the Lantern stack has left (R221). -/
def State.lanternDeep (s : State) (k : Nat) : Nat := min (4 * Config.lanternDepth k) (16384 - s.f Reg.EXC_LSP 14 0)

/-- Lantern has run. Its code is its firmware's own: the lines that it has used, what its transfers have trained while prediction is
on for it, what it adds to the PIP counters and how deep its return stack has been are free values. -/
def State.lanternRan (s : State) : State :=
  let k := s.free
  let s := s.tickFree
  let ok (p : Nat → Bool) (l : List Nat) : List Nat := l.filter fun x => (p (32 * x) || lanternLine (32 * x)) && s.fillable x
  let fetched := ok s.iCacheable (Config.lanternFetches k)
  let trained := ((Config.lanternBranches k).foldl (fun c b => c.train b.1 b.2) s.core)
  let trained := (Config.lanternTargets k).foldl (fun c b => c.setTarget b.1 b.2) trained
  let off := decide (s.f Reg.PIP_CTRL 0 0 = 1) || s.scn.gdet
  let l := s.core.lantern
  { s with core := ({ s.core with
      icache := fetched.foldl (cacheUse 256) s.core.icache
      dcache := (ok s.cacheable (Config.lanternLoads k)).foldl (cacheUse 128) s.core.dcache
      lineBuf := (fetched.getLast?).orElse fun _ => s.core.lineBuf
      bp := if off then s.core.bp else trained.bp
      itt := if off then s.core.itt else trained.itt
      gh := if off then s.core.gh else trained.gh
      lantern := { l with
        counts := (List.range 7).map fun i => l.counts.getD i 0 + Config.lanternCount i k
        peak := max l.peak (s.f Reg.EXC_LSP 14 0 + s.lanternDeep k) } }).heldMarks }

end Sys2Proof.Machine
end

