-- ==== Sys2Proof/Machine/Operands.lean ====
section
/-! DEFINITION. The operand forms: the checks of an access through a selector (R104, R19, R108), the physical access
behind them, and the point and image-word operands of bit, vector and long instructions (R107, R109). -/

namespace Sys2Proof.Machine

/-- A synchronous fault of a context (R211): vector, REASON, selector (15 for none), and what its failing access set
off besides: a DOMAIN_OFF answer, or an uncorrectable word's address. -/
structure Trap where
  vec : Nat
  reason : Nat
  seg : Nat := 15
  off : Bool := false
  ecc : Option Nat := none
  /-- The address of an access of an FP ownership transfer: machine check condition 4 besides (R480). -/
  fpx : Option Nat := none
  deriving DecidableEq, Repr

/-- The instruction cannot execute yet: its access stalls (R19). No vector has this form. -/
def stallTrap : Trap := ⟨0, 0, 15, false, none, none⟩

/-- A hardware routine, of the entry word m, is abandoned at a word with bad parity behind its j-th safe point, on the path of the
free value p (R248). No vector has this form. -/
def parityTrap (m j p : Nat) : Trap := ⟨0, j, m, false, some p, none⟩

/-- A routine has been abandoned, and the state holds what it had committed and the machine check. No vector has this form. -/
def abandonTrap : Trap := ⟨0, 1, 15, false, none, none⟩

/-- The kinds of access that R104 tells apart. -/
inductive Acs where
  | load | store | both | fetch
  deriving DecidableEq, Repr

/-- The permission bits an access needs (R104, check 2). -/
def Acs.permitted (k : Acs) (d : Word × Word) : Bool :=
  match k with
  | .load => dR d
  | .store => dW d
  | .both => dR d && dW d
  | .fetch => dX d

/-- An access writes. -/
def Acs.writes : Acs → Bool
  | .store => true
  | .both => true
  | _ => false

/-- An access reads. -/
def Acs.reads : Acs → Bool
  | .load => true
  | .both => true
  | _ => false

/-- The image rules for an access through a segment with the IMG attribute (R108, R268): loads from the I, Q, M and S
areas, the stamps, the force entries and index and the chain area; stores to the Q and M areas. -/
def imgRefused (k : Acs) (img : Bool) (a : Nat) : Bool :=
  let o := a - ibBase
  let loadOk := decide (o < 0x22000) || (decide (0x34000 ≤ o) && decide (o < 0x3C800)) || decide (0x3F000 ≤ o)
  let storeOk := decide (0x8000 ≤ o) && decide (o < 0x20000)
  match k with
  | .fetch => true
  | _ => !img || (k.reads && !loadOk) || (k.writes && !storeOk)

/-- What check 5 refuses an address for: REASON 3 for the regions of R19 and R264, REASON 4 for the image rules. -/
def State.refusal5 (s : State) (prv img : Bool) (k : Acs) (a size : Nat) : Option Nat :=
  match regionOf a with
  | .reserved => some 3
  | .kb => some 3
  | .rom => some 3
  | .log => some 3
  | .regs => if !prv || decide (size < 4) then some 3 else none
  | .cba => if k.writes || s.mappedOut a then some 3 else none
  | .cbb => if k.writes || s.mappedOut a then some 3 else none
  | .ib => if imgRefused k img a then some 4 else none
  | _ => if s.mappedOut a then some 3 else none

/-- The first of checks 1 to 5 of R104 that fails for an access of `size` bytes at offset o through selector k of
context c, aligned to `align`; else the block physical address. -/
def State.check (s : State) (c : Ctx) (k : Nat) (acs : Acs) (o size align : Nat) : Except Trap Nat :=
  let d := c.seg k
  let prv := bit c.sw swPRV
  let a := dBase d + o
  if !dVALID d || decide (fld d.2 31 24 = 0) then .error ⟨3, 0, k, false, none, none⟩
  else if !acs.permitted d then .error ⟨3, 1, k, false, none, none⟩
  else if dPRV d && !prv then .error ⟨3, 2, k, false, none, none⟩
  else if dLimit d < o + size - 1 then .error ⟨2, if acs = .fetch then 1 else 0, k, false, none, none⟩
  else if o % align ≠ 0 then .error ⟨4, 0, k, false, none, none⟩
  else match (s.refusal5 prv (dIMG d) acs a (if acs = .fetch then 4 else size)).orElse
      (fun _ => s.refusal5 prv (dIMG d) acs (a + size - 1) (if acs = .fetch then 4 else size)) with
    | some r => .error ⟨3, r, k, false, none, none⟩
    | none => .ok a

/-- Read n bytes at a block physical address for a context: DOMAIN_OFF is REASON 5, an uncorrectable word REASON 7
(R17, R258); a register page is read live. -/
def State.busLoad (s : State) (k a n : Nat) : Except Trap (Nat × State) :=
  let d := domainOf a
  if !s.serves d then .error ⟨3, 5, k, true, none, none⟩
  else
    let s := s.touch d
    if regionOf a = .regs then
      let (v, s) := s.readReg .context true a
      .ok (v.toNat, s)
    else
      match s.eccRead a 0 with
      | (false, _) => .error ⟨3, 7, k, false, some a, none⟩
      | (true, s) => .ok (s.mread a n, s)

/-- A load may not start before the pipeline is on the correct path: NS by its descriptor, or in XB or a register page
(R21, R100). -/
def isNS (d : Word × Word) (a : Nat) : Bool := dNS d || decide (regionOf a = .xb) || decide (regionOf a = .regs)

/-- A load of a context from a cacheable region: a hit, or a line on its way, takes the data from the cache, and a miss from the
bank, whose line it requests (R165). -/
def State.cachedLoad (s : State) (k a n : Nat) : Except Trap (Nat × State) :=
  if s.dHit a then .ok (s.mread a n, s.dLookup a) else (s.dLookup a).busLoad k a n

/-- A load of a context by the way its region takes. -/
def State.anyLoad (s : State) (k a n : Nat) : Except Trap (Nat × State) :=
  if s.cacheable a then s.cachedLoad k a n else s.busLoad k a n

/-- Read at an address through selector k of context n, every store before it that the way of its region waits for seen (R167,
R168). -/
def State.fetchAt (s : State) (n k a size : Nat) : Except Trap (Nat × State) :=
  if regionOf a = .ib && s.imageHeld then .error stallTrap
  else if isNS ((s.ctx n).seg k) a then (s.drainAll).busLoad k a size
  else if !s.cacheable a then (s.drainN (drainCount (fun e => regionOf e.pa == regionOf a) s.core.sb)).busLoad k a size
  else match s.sbHit a size with
    | .forward v => .ok (v.toNat % 2 ^ (8 * size), s.count Reg.PIP_FWD)
    | .partialOverlap =>
      ((s.count Reg.PIP_PARTIAL).drainN (drainCount (fun e => overlap a size e.pa e.size) s.core.sb)).anyLoad k a size
    | .none => s.anyLoad k a size

/-- A store of a context can be accepted by its bank: the domain serves and the word has no uncorrectable error. -/
def State.busAccepts (s : State) (k a : Nat) : Except Trap Unit :=
  if !s.serves (domainOf a) then .error ⟨3, 5, k, true, none, none⟩
  else if s.eccAt a = .double then .error ⟨3, 7, k, false, some a, none⟩
  else .ok ()

/-- What a trap's failing access sets off: source 104 and class 4, or the recorded error and machine check 1. -/
def State.trapEffects (s : State) (t : Trap) (issuer : Option Nat) : State :=
  let s := if t.off then s.domainOff else s
  match t.ecc with
  | some a => (s.uncorrectable a 0).mcheck 1 issuer a
  | none => s

/-- The same, with the machine check of a failed FP transfer access (R480). -/
def State.trapEffectsFp (s : State) (t : Trap) (issuer : Option Nat) : State :=
  let s := s.trapEffects t issuer
  match t.fpx with
  | some a => s.mcheck 4 issuer a
  | none => s

/-! ### Points and image words (R106 to R109) -/

/-- The point that a bit instruction addresses: IW + offset (R107). -/
def Ctx.point (c : Ctx) (off : BitVec 8) : Nat := c.iwn * 256 + off.toNat

/-- Point p as the image holds it. -/
def State.pointVal (s : State) (p : Nat) : Bool := bit (s.img (p / 64)) (p % 64)

/-- Write point p; its image word is stamped if it changes (R269). -/
def State.setPoint (s : State) (p : Nat) (v : Bool) : State := s.imgWrite (p / 64) (setBit (s.img (p / 64)) (p % 64) v) 0

/-- The area of an image word: 0 I, 1 Q, 2 M, 3 S, 4 none (R106). -/
def areaOf (w : Nat) : Nat :=
  if w < 4096 then 0 else if w < 8192 then 1 else if w < 16384 then 2 else if w < 17408 then 3 else 4

/-- The image word that a vector or long image operand names: a multiple of 64 in an assigned area (R109). -/
def vectorWord (pa : Word) : Except Trap Nat :=
  if pa.toNat % 64 ≠ 0 then .error ⟨4, 0, 15, false, none, none⟩
  else if 0x110000 ≤ pa.toNat then .error ⟨2, 2, 15, false, none, none⟩
  else .ok (pa.toNat / 64)

/-- A write to an image word of the I or S area is refused (R108). -/
def writableWord (w : Nat) : Except Trap Unit :=
  if areaOf w = 1 ∨ areaOf w = 2 then .ok () else .error ⟨3, 4, 15, false, none, none⟩

end Sys2Proof.Machine
end

