-- ==== Sys2Proof/Machine/Ops.lean ====
section
/-! DEFINITION. The named operations of the core: the stacks with spill and fill (R90 to R93, R200, R201), taking a
synchronous fault (R213 to R221) and the return from one (R143), pending vectors (R475), and the retirement of an
instruction. -/

namespace Sys2Proof.Machine

/-! ### Operand stack (R90, R91, R200) -/

/-- A word of the n at offset o of a segment lies in the image bank while the engine holds it: a spill, a fill or a fault entry that
has passed its checks stalls there (R19, R104). -/
def State.segHeld (s : State) (c : Ctx) (k o n : Nat) : Bool :=
  s.imageHeld && (List.range n).any fun i => decide (regionOf (dBase (c.seg k) + o + 4 * i) = .ib)

/-- The n words at offset o of a segment pass the checks of a load. -/
def State.loadRange (s : State) (c : Ctx) (k o n : Nat) : Bool :=
  (List.range n).all fun i => match s.check c k .load (o + 4 * i) 4 4 with
    | .error _ => false
    | .ok _ => true

/-- A stack's spill or fill failed at an access: the stack's own vector, REASON 1 for a check of R104, 2 for an answer
DOMAIN_OFF or ABORTED; an uncorrectable error counts as ABORTED (R201, R258). -/
def stackTrap (vec k : Nat) (t : Trap) : Trap :=
  { t with vec := vec, reason := if t.off || t.ecc.isSome then 2 else 1, seg := k }

/-- Every word of a range can be stored through selector k. -/
def State.storeRange (s : State) (c : Ctx) (k o : Nat) : Nat → Except Trap Unit
  | 0 => .ok ()
  | n + 1 =>
    match s.check c k .store o 4 4 with
    | .error t => .error t
    | .ok a => match s.busAccepts k a with
      | .error t => .error t
      | .ok _ => s.storeRange c k (o + 4) n

/-- Words from an address on enter the store buffer (R165, R200); their range has been checked. DESIGN CHOICE: a word that finds the
buffer full does not count in PIP_SBFULL, which R184 describes for stores held in W. -/
def State.putWords (s : State) (n base : Nat) : List Word → State
  | [] => s
  | w :: ws => (s.sbPut ⟨base, 4, w, some n⟩).putWords n (base + 4) ws

/-- Read n words from offset o through selector k. -/
def State.getWords (s : State) (c : Ctx) (k o : Nat) : Nat → Except Trap (List Word × State)
  | 0 => .ok ([], s)
  | n + 1 =>
    match s.check c k .load o 4 4 with
    | .error t => .error t
    | .ok a => match s.anyLoad k a 4 with
      | .error t => .error t
      | .ok (v, s) => match s.getWords c k (o + 4) n with
        | .error t => .error t
        | .ok (ws, s) => .ok (BitVec.ofNat 32 v :: ws, s)

/-- The buffered stores to the lines that a fill of k words from offset o reads drain first (R202); from a region that is not
cached, every store does (R168). -/
def State.fillDrain (s : State) (c : Ctx) (k o n : Nat) : State :=
  let a := dBase (c.seg k) + o
  if isNS (c.seg k) a || !s.cacheable a then s.drainAll
  else s.drainN (drainCount (fun e => overlap (a / 32 * 32) ((a + 4 * n - 1) / 32 * 32 + 32 - a / 32 * 32) e.pa e.size) s.core.sb)

/-- A hardware routine of context n goes on from its j-th safe point, unless a bad word of it is in the way (R237, R248). -/
def State.hwRoutine (s : State) (n m j : Nat) : Except Trap State :=
  match s.stretchGood n m j with
  | (true, s) => .ok s
  | (false, _) => .error (parityTrap m j s.free)

/-- The routine of a spill or fill of some words: its safe point lies after the fourth (R202). -/
def State.hwMove (s : State) (n m words : Nat) : Except Trap State :=
  match s.hwRoutine n m (if (s.ctx n).half.isSome then 1 else 0) with
  | .error t => .error t
  | .ok s => if words ≤ 4 then .ok s else s.hwRoutine n m 1

/-- Spill the `m` oldest entries of the operand cache (R200): the oldest goes to the highest offset. The limit of R91 is
judged as the spill begins, and for its second half by what is left. -/
def State.opSpill (s : State) (n m : Nat) : Except Trap State :=
  match s.hwMove n hwSpill m with
  | .error t => .error t
  | .ok s =>
  let c := s.ctx n
  if c.osp.toNat < (if c.oc.length = 16 then 32 else 4 * m) then .error ⟨6, 0, 15, false, none, none⟩
  else
    let o := c.osp.toNat - 4 * m
    match s.storeRange c 2 o m with
    | .error t => .error (stackTrap 6 2 t)
    | .ok _ =>
      if s.segHeld c 2 o m then .error stallTrap else
      let s := s.putWords n (dBase (c.seg 2) + o) (c.oc.drop (c.oc.length - m))
      .ok (s.updCtx n fun c => { c with oc := c.oc.take (c.oc.length - m), osp := BitVec.ofNat 32 o })

/-- Fill up to `m` words of the operand stack from memory, below the entries already cached (R200). -/
def State.opFill (s : State) (n m : Nat) : Except Trap State :=
  match s.hwMove n hwFill m with
  | .error t => .error t
  | .ok s =>
  let c := s.ctx n
  let k := min m (memWords c.osp (c.seg 2))
  if s.segHeld c 2 c.osp.toNat k && s.loadRange c 2 c.osp.toNat k then .error stallTrap else
  match (s.fillDrain c 2 c.osp.toNat k).getWords c 2 c.osp.toNat k with
  | .error t => .error (stackTrap 7 2 t)
  | .ok (ws, s) =>
    .ok (s.updCtx n fun c => { c with oc := c.oc ++ ws, osp := c.osp + BitVec.ofNat 32 (4 * k) })

/-- The cache holds at least k entries, after a fill where it did not; fewer on the whole stack are an underflow
(R91). -/
def State.need (s : State) (n k : Nat) : Except Trap State :=
  let c := s.ctx n
  if k ≤ c.oc.length then .ok s
  else if c.depth < k then .error ⟨7, 0, 15, false, none, none⟩
  else s.opFill n 8

/-- Drop the top k cached entries; a loaded value whose slot is popped is discarded (R140). -/
def Ctx.dropTop (c : Ctx) (k : Nat) : Ctx :=
  let c' := { c with oc := c.oc.drop k }
  { c' with landing := c.landing.filter fun l => decide (l.1 < c'.depth) }

/-- Entry i of the operand cache, TOS being 0. -/
def Ctx.top (c : Ctx) (i : Nat) : Word := c.oc.getD i 0

/-- Push a value; a full cache first spills its 8 oldest entries (R90). -/
def State.push (s : State) (n : Nat) (v : Word) : Except Trap State :=
  let c := s.ctx n
  if c.oc.length < 16 then .ok (s.setCtx n { c with oc := v :: c.oc })
  else match s.opSpill n 8 with
    | .error t => .error t
    | .ok s => .ok (s.updCtx n fun c => { c with oc := v :: c.oc })

/-- Push a list of values, its head first. -/
def State.pushAll (s : State) (n : Nat) : List Word → Except Trap State
  | [] => .ok s
  | v :: vs => match s.push n v with
    | .error t => .error t
    | .ok s => s.pushAll n vs

/-- Pop k entries and give them, TOS first. -/
def State.popN (s : State) (n k : Nat) : Except Trap (List Word × State) :=
  match s.need n k with
  | .error t => .error t
  | .ok s => .ok ((s.ctx n).oc.take k, s.updCtx n fun c => c.dropTop k)

/-! ### Return stack (R92) -/

/-- Spill the `m` oldest entries of the return cache (R200). -/
def State.retSpill (s : State) (n m : Nat) : Except Trap State :=
  match s.hwMove n hwRetSpill m with
  | .error t => .error t
  | .ok s =>
  let c := s.ctx n
  if c.rsp.toNat < (if c.rc.length = 8 then 32 else 4 * m) then .error ⟨8, 0, 15, false, none, none⟩
  else
    let o := c.rsp.toNat - 4 * m
    match s.storeRange c 3 o m with
    | .error t => .error (stackTrap 8 3 t)
    | .ok _ =>
      if s.segHeld c 3 o m then .error stallTrap else
      let s := s.putWords n (dBase (c.seg 3) + o) (c.rc.drop (c.rc.length - m))
      .ok (s.updCtx n fun c => { c with rc := c.rc.take (c.rc.length - m), rsp := BitVec.ofNat 32 o })

/-- Fill up to `m` words of the return stack from memory. -/
def State.retFill (s : State) (n m : Nat) : Except Trap State :=
  match s.hwMove n hwRetFill m with
  | .error t => .error t
  | .ok s =>
  let c := s.ctx n
  let k := min m (memWords c.rsp (c.seg 3))
  if s.segHeld c 3 c.rsp.toNat k && s.loadRange c 3 c.rsp.toNat k then .error stallTrap else
  match (s.fillDrain c 3 c.rsp.toNat k).getWords c 3 c.rsp.toNat k with
  | .error t => .error (stackTrap 9 3 t)
  | .ok (ws, s) =>
    .ok (s.updCtx n fun c => { c with rc := c.rc ++ ws, rsp := c.rsp + BitVec.ofNat 32 (4 * k) })

/-- Push a return word; a full cache first spills whole. -/
def State.rpush (s : State) (n : Nat) (v : Word) : Except Trap State :=
  let c := s.ctx n
  if c.rc.length < 8 then .ok (s.setCtx n { c with rc := v :: c.rc })
  else match s.retSpill n 8 with
    | .error t => .error t
    | .ok s => .ok (s.updCtx n fun c => { c with rc := v :: c.rc })

/-- The newest return word is in the cache, after a fill where the cache was empty; an empty stack is an underflow. -/
def State.rneed (s : State) (n : Nat) : Except Trap State :=
  let c := s.ctx n
  if c.rc ≠ [] then .ok s
  else if c.rdepth = 0 then .error ⟨9, 0, 15, false, none, none⟩
  else s.retFill n 8

/-- Pop a return word. -/
def State.rpop (s : State) (n : Nat) : Except Trap (Word × State) :=
  match s.rneed n with
  | .error t => .error t
  | .ok s => .ok ((s.ctx n).rc.headD 0, s.updCtx n fun c => { c with rc := c.rc.drop 1 })

/-! ### A spill or fill that stood at its safe point (R202) -/

/-- The context has no spill or fill under way. -/
def Ctx.wholeMove (c : Ctx) : Ctx := { c with half := none }

/-- A spill or fill that stood at its safe point goes on with the rest, before the instruction that it was for. -/
def State.resumeHalf (s : State) (n : Nat) : Except Trap State :=
  let r : Except Trap State := match (s.ctx n).half with
    | none => .ok s
    | some .opSpill => s.opSpill n 4
    | some .opFill => s.opFill n 4
    | some .retSpill => s.retSpill n 4
    | some .retFill => s.retFill n 4
  match r with
  | .error t => .error t
  | .ok s => .ok (if (s.ctx n).half.isNone then s else s.updCtx n Ctx.wholeMove)

/-! ### Logic stack (R93) -/

/-- Push LA onto the logic stack. -/
def Ctx.lpush (c : Ctx) : Except Trap Ctx :=
  if 16 ≤ c.ldepth then .error ⟨12, 0, 15, false, none, none⟩
  else .ok { c with ls := (c.ls <<< 1) ||| BitVec.ofNat 16 c.la.toNat, ldepth := c.ldepth + 1 }

/-- Pop the logic stack: LS0 moves to LA. -/
def Ctx.lpop (c : Ctx) : Except Trap Ctx :=
  if c.ldepth = 0 then .error ⟨12, 1, 15, false, none, none⟩
  else .ok { c with la := bit c.ls 0, ls := c.ls >>> 1, ldepth := c.ldepth - 1 }

/-- The fault word (R214). -/
def faultWord (vec reason ctx seg : Nat) (lant nest lost : Bool) : Nat :=
  vec + reason * 0x100 + lant.toNat * 0x1000 + ctx * 0x4000 + nest.toNat * 0x100000 + lost.toNat * 0x200000
    + seg * 0x1000000

/-! ### The Lantern stack and the two terminal halts (R221, R229) -/

abbrev lanternTop : Nat := 0x740000

/-- The core stops for good: stranded halt or KX4 lockup, with its record by the hardware path. -/
def State.haltForGood (s : State) (h : Halt) (fw : Nat) : State :=
  let s := s.setB Reg.EXC_STAT (if h = .stranded then 0 else 1)
  let s := s.logPut (if h = .stranded then 0x8011 else 0x8012) 0x103 (toBytes fw 4)
  State.failTwo { s with core := { s.core with halt := h } } (Config.failCause (if h = .stranded then 0 else 1))

/-- Push a frame onto the Lantern stack, below what Lantern's return stack holds there (R221): a frame that does not fit strands the
core. -/
def State.lanternPush (s : State) (frame : List Word) (fw : Nat) : Bool × State :=
  let l := s.core.lantern
  let used := s.f Reg.EXC_LSP 14 0 + l.depth
  if 16384 < used + 16 then (false, s.haltForGood .stranded fw)
  else
    let s := s.putWhole (lanternTop - used - 16) (wordsToBytes frame)
    let s := { s with core := { s.core with lantern := { l with depth := 0, under := l.depth :: l.under } } }
    let s := s.setF Reg.EXC_LSP 14 0 (used + 16)
    (true, s.setF Reg.EXC_LSP 30 16 (max (s.f Reg.EXC_LSP 30 16) (used + 16)))

/-- Pop a frame from the Lantern stack. -/
def State.lanternPop (s : State) : State :=
  let l := s.core.lantern
  ({ s with core := { s.core with lantern := { l with depth := l.under.headD 0, under := l.under.tail } } }).setF
    Reg.EXC_LSP 14 0 (s.f Reg.EXC_LSP 14 0 - 16 - l.under.headD 0)

/-- Lantern interprets a command, and its own code executes: no context has the core, a HOLD stands, or a share slot has interrupted the
context. -/
def State.lanternBusy (s : State) : Bool :=
  s.lanternRuns && s.hst.interp.isSome && (s.car.running.isNone || s.core.lantern.slot || decide (s.scn.mode = .hold))

/-- Lantern's own GM masks its asynchronous entries while it runs (R222, R223). -/
def State.lanternMasked (s : State) : Bool := s.lanternBusy && bit s.core.lantern.sw swGM

/-- The address of vector v of Lantern's table (R222). -/
def lanternVector (v : Nat) : Word := BitVec.ofNat 32 (0x708000 + 16 * v)

/-- Lantern's code goes on at an address. -/
def State.lanternAt (s : State) (pc : Word) : State :=
  { s with core := { s.core with lantern := { s.core.lantern with pc := pc } } }

/-- Lantern is entered at vector v: a loaded value on its way in the running context lands (R140), Lantern's code leaves its lines in
the caches, and the trace shows the switch (R222, R443). -/
def State.lanternIn (s : State) (v : Nat) : State :=
  (((s.landRunning).lanternRan).lanternAt (lanternVector v)).traceSwitch lanternByte (ctxByte s.car.running) (lanternVector v).toNat

/-- Lantern returns to the context on the core, if any. -/
def State.lanternOut (s : State) : State :=
  s.traceSwitch (ctxByte s.car.running) lanternByte (match s.car.running with
    | some n => (s.ctx n).pc.toNat
    | none => 0)

/-- Lantern is entered at vector v and returns; a context's instructions in F and D are cancelled (R180). -/
def State.traceLantern (s : State) (v : Nat) : State :=
  (((if s.car.running.isSome then s.cancelYounger else s).lanternIn v)).lanternOut

/-- A frame of Lantern's own entry. Its PC is its firmware's own (a free value). DESIGN CHOICE: the progress word is 0, as that of an
instruction that is not long and stands before no pending transfer (R213). -/
def State.lanternFrame (s : State) (fw : Nat) : List Word :=
  [0, BitVec.ofNat 32 fw, s.core.lantern.sw, Config.freeWord s.free &&& 0xFFFFFFFE]

/-- LANTERN'S OWN SYNCHRONOUS FAULT (R218, R221, R222, R229): a frame with LANT 1 and CTX 0 goes on the Lantern stack, and Lantern's
status word has GM and LKC cleared. Whether the handler of an earlier fault has retired its first instruction no command
tells: with a frame of Lantern's on the stack, NEST is a free value. -/
def State.lanternFault (s : State) (vec reason : Nat) : State :=
  let nested := decide (16 ≤ s.f Reg.EXC_LSP 14 0) && Config.lanternNests s.free
  let fw := faultWord vec reason 0 15 true nested false
  let s := if nested then (s.count Reg.EXC_NEST).classify 11 0 else s
  if nested ∧ s.f Reg.SYS_CTRL 0 0 = 1 then s.tickFree.haltForGood .lockup fw
  else match (s.tickFree).lanternPush (s.lanternFrame fw) fw with
    | (false, s) => s
    | (true, s) => { s with core := { s.core with lantern :=
        { s.core.lantern with sw := setBit (setFld s.core.lantern.sw 14 12 0) swGM false, pc := lanternVector 3 } } }

/-- Lantern's RETI pops a frame of the Lantern stack and takes its PC and its status word from it (R222); a word of it that cannot be
corrected is a machine check, and what it holds a free value (R228, R258). -/
def State.lanternReturn (s : State) : State :=
  if s.f Reg.EXC_LSP 14 0 < 16 then s else
  let a := lanternTop - s.f Reg.EXC_LSP 14 0
  let r := s.lanternBytes a 16
  let s := r.2.lanternPop
  { s with core := { s.core with lantern := { s.core.lantern with
      sw := BitVec.ofNat 32 (word32 r.1 8), pc := BitVec.ofNat 32 (word32 r.1 12) } } }

/-- Lantern has work that waits (R199): a submitted ring slot, a deferred command, staged work, or the restart of the
watchdog, due from PERIOD/8 on (R462). -/
def State.lanternWork (s : State) : Bool :=
  (List.range 64).any (fun n => decide ((s.slot n).st = 1)) || !s.hst.jobs.isEmpty || !s.scn.staged.isEmpty
    || !s.flk.staged.isEmpty || !s.olc.consts.isEmpty || decide (s.flt.wdtLimit ≤ 8 * (s.flt.ft - s.flt.wdtFrom))

/-- Context n lets Lantern have share slots: it is not in deterministic mode, its own or global, but in housekeeping (R199, R281). -/
def State.slotAllowed (s : State) (n : Nat) : Bool :=
  decide (s.scn.mode = .run) && decide (s.scn.phase = .housekeeping)
    || !(bit (s.ctx n).sw swDET || (s.scn.gdet && decide (s.scn.mode = .run)))

/-- Lantern's frame-lost handler (R220): the record, the frame popped, and the faulting context stopped, halted or
restarted at vector 0. -/
def State.frameLostHandler (s : State) (n : Nat) (frame : List Word) : State :=
  let s := (s.lanternIn 2).logPut 0x8010 0x03 (wordsToBytes frame)
  let s := s.lanternPop
  let s := s.updCtx n fun c => { c with chain := false, chainLant := false }
  State.lanternOut <| if n = 0 then s.enterStop 3
  else
    let s := { s with car := { s.car with running := none } }
    if s.f Reg.EXC_CTRL 1 1 = 0 then s.haltCtx n
    else
      let s := (s.initRoutine n).initCtx n
      if (s.ctx n).st = .waiting then (s.updCtx n fun c => { c with pc := 0 }).makeReady n else s

/-! ### Taking a synchronous fault (R213 to R219) -/

/-- The progress word of a frame (R213): a long instruction in progress, a pending transfer, or 0. -/
def Ctx.frameProg (c : Ctx) : Word :=
  match c.slot with
  | .taken t => 0x80000000 ||| (t &&& 0x3FFFFF)
  | _ => if fld c.prog 31 30 = 1 then c.prog else 0

/-- The frame, newest word first: pw, fw, SW, PC (R213). -/
def Ctx.frame (c : Ctx) (fw : Nat) : List Word := [c.frameProg, BitVec.ofNat 32 fw, c.sw, c.pc]

/-- Fault entry can push the return cache and the frame onto the return stack (R215): the range lies above offset 0,
passes the checks of R104 on selector 3 as a store aligned to 4, and every word is accepted. -/
def State.entryFits (s : State) (c : Ctx) : Bool :=
  let need := 4 * (c.rc.length + 4)
  decide (need ≤ c.rsp.toNat) &&
    match s.check c 3 .store (c.rsp.toNat - need) need 4 with
    | .error _ => false
    | .ok _ => match s.storeRange c 3 (c.rsp.toNat - need) (c.rc.length + 4) with
      | .error _ => false
      | .ok _ => true

/-- The answers DOMAIN_OFF or uncorrectable that made a push fail (R218) have their own effects. -/
def State.entryFailEffects (s : State) (n : Nat) (c : Ctx) : State :=
  let need := 4 * (c.rc.length + 4)
  match s.storeRange c 3 (c.rsp.toNat - need) (c.rc.length + 4) with
  | .error t => if need ≤ c.rsp.toNat then s.trapEffects t (some n) else s
  | .ok _ => s

/-- A fault entry through a return stack in the image bank stalls while the engine holds it (R19). -/
def State.entryStalls (s : State) (n : Nat) : Bool :=
  let c := s.ctx n
  s.segHeld c 3 (c.rsp.toNat - 4 * (c.rc.length + 4)) (c.rc.length + 4)

/-- The context as fault entry leaves it (R215, step 4), its frame pushed with the flushed return cache. DESIGN CHOICE: a spill or
fill that stood at its safe point is not taken up again by the handler. -/
def Ctx.entered (c : Ctx) (vec : Nat) : Ctx :=
  { c with
    half := none, wrong := none, vec14 := none, yielded := false, noMatch := false, rc := [], rsp := c.rsp - BitVec.ofNat 32 (4 * (c.rc.length + 4))
    prog := 0, sw := setBit (setFld c.sw 14 12 0) swGM false
    pc := BitVec.ofNat 32 (16 * vec), slot := .none, chain := true }

/-- Something waits that may fall at the safe point of a fault entry of context n (R216): a switch, a debug halt, an entry of Lantern;
not in a lock or a delay slot, nor, but for the halt, while GM is 1. -/
def State.entryWaits (s : State) (n : Nat) : Bool :=
  let c := s.ctx n
  decide (c.lkc = 0) && decide (c.slot = .none) && !c.chainLant
    && (s.dbg.hreq.isSome || (!bit c.sw swGM && (s.switchWaits || decide (s.reg Reg.EXC_MCPEND ≠ 0)
      || (s.lanternRuns && s.lanternWork && s.slotAllowed n))))

/-- What waits falls there: whether it does, or waits for the handler's first instruction (R230), is a free value. -/
def State.yields (s : State) (n : Nat) : Bool := s.entryWaits n && s.entryFits (s.ctx n) && Config.entryYields s.free

/-- The context of an instruction that is not to retire: a loaded value on its way lands (R140). -/
def State.settleLoad (s : State) (n : Nat) : State :=
  s.updCtx n fun c => { ({ c with load := c.landing.orElse fun _ => c.load }).land with landing := none }

/-- A fault entry as far as its safe point (R216): the return cache is flushed, no frame is written, and the context stays at the
instruction, which will raise the same fault again; vector 14 stays pending. -/
def State.flushOnly (s : State) (n : Nat) : State :=
  let s := (s.tickFree.cancelYounger).settleLoad n
  let c := s.ctx n
  let o := c.rsp.toNat - 4 * c.rc.length
  (((s.putWords n (dBase (c.seg 3) + o) c.rc).drainAll).updCtx n fun c => { c with
    rc := [], rsp := BitVec.ofNat 32 o, yielded := true })

/-- TAKING AN EXCEPTION. Context n, on the core, takes the fault t (R215): the return cache is flushed and the frame
pushed onto its return stack, PROG, GM and LKC are cleared, and PC goes to the vector. A push that fails loses the
frame to the Lantern stack (R219); a fault within a fault entry locks the core up while SYS_CTRL.KX4 is 1 (R229). What waits may
fall at the entry's safe point (R216). A bad word of the entry's routine abandons it, and the fault is raised again (R248). -/
def State.takeFault (s : State) (n : Nat) (t : Trap) : State :=
  match s.routineGood n hwFault with
  | (false, s) => s
  | (true, s) =>
  let s := s.trapEffectsFp t (some n)
  let s := if t.vec = 14 ∧ 8 ≤ t.reason then s.updCtx n fun c => { c with vec14 := some (t.reason - 8) } else s
  if s.yields n then s.flushOnly n else
  let r := s.stretchGood n hwFault 1
  if !r.1 && s.entryFits (s.ctx n) && !(s.ctx n).chainLant then r.2.flushOnly n else
  let s := r.2
  let s := (s.cancelYounger).settleLoad n
  let c := s.ctx n
  let kx4 := s.f Reg.SYS_CTRL 0 0 = 1
  let fw := faultWord t.vec t.reason n t.seg false c.chain false
  let s := if c.chain then (s.count Reg.EXC_NEST).classify 11 0 else s
  if c.chain ∧ kx4 then s.haltForGood .lockup fw
  else if !c.chainLant && s.entryFits c then
    let base := dBase (c.seg 3) + (c.rsp.toNat - 4 * (c.rc.length + 4))
    let s := (s.putWords n base (c.frame fw ++ c.rc)).drainAll
    s.setCtx n (c.entered t.vec)
  else
    let s := if c.chainLant then s else ((s.entryFailEffects n c).count Reg.EXC_NEST).classify 11 0
    if kx4 then s.haltForGood .lockup fw
    else
      let fw := faultWord t.vec t.reason n t.seg false c.chain true
      let s := ((s.count Reg.EXC_FLOST).classify 10 0).updCtx n fun c => { c with chain := true, chainLant := true }
      match s.lanternPush (c.frame fw) fw with
      | (false, s) => s
      | (true, s) => s.frameLostHandler n (c.frame fw)

/-- A debug step reaches its end (R437). -/
def State.stepEnds (s : State) : State :=
  if s.dbg.step.isSome then { s with dbg := { s.dbg with stepDone := true } } else s

/-- The routine m of a spill or fill is abandoned behind its j-th safe point, on the path of the free value p: what it has moved
before stands (R202, R227, R248). -/
def State.moveAbandoned (s : State) (n m j p : Nat) : State :=
  let moved : Except Trap State × Option Half :=
    if j = 0 ∨ (s.ctx n).half.isSome then (.ok s, (s.ctx n).half)
    else if m = hwSpill then (s.opSpill n 4, some .opSpill)
    else if m = hwFill then (s.opFill n 4, some .opFill)
    else if m = hwRetSpill then (s.retSpill n 4, some .retSpill)
    else (s.retFill n 4, some .retFill)
  match moved with
  | (.error _, _) => s
  | (.ok t, h) => (({ t.updCtx n fun c => { c with half := h } with free := p } : State).stretchGood n m j).2

/-- An instruction of context n, issued in s0 and reaching W in s, faults: it waits where its access or the entry stalls (R19), and
is abandoned where a hardware routine that it needs is (R248). -/
def State.faultFrom (s0 s : State) (n : Nat) (t : Trap) : State :=
  if t = stallTrap ∨ s.entryStalls n then s0
  else if t.vec = 0 then s0.unlessDrained (match t.ecc with
    | some p => s0.moveAbandoned n t.seg t.reason p
    | none => s)
  else s0.unlessDrained ((s.takeFault n t).stepEnds)

/-! ### The return from a fault (R143) -/

/-- RETURN FROM AN EXCEPTION. RETI pops pw, fw, SW and PC from the return stack; fewer than four words are an
underflow, and a progress word of the reserved kind is refused (REASON 7). DEDUCED: bit 0 of a TARGET is dropped as that of PC is, which is
always 0 (R88). -/
def State.returnFromFault (s : State) (n : Nat) : Except Trap State :=
  if (s.ctx n).rdepth < 4 then .error ⟨9, 0, 15, false, none, none⟩ else
  match s.rpop n with
  | .error t => .error t
  | .ok (pw, s) => match s.rpop n with
    | .error t => .error t
    | .ok (_, s) => match s.rpop n with
      | .error t => .error t
      | .ok (sw, s) => match s.rpop n with
        | .error t => .error t
        | .ok (pc, s) =>
          if fld pw 31 30 = 3 then .error ⟨1, 7, 15, false, none, none⟩ else
          .ok (s.updCtx n fun c => { c with
            prog := pw
            sw := swReturned (s.k4 n) (bit (s.ctx n).ctrl 5) c.sw sw
            pc := pc &&& 0xFFFFFFFE
            slot := if fld pw 31 30 = 2 then .taken (pw &&& 0x3FFFFE) else .none
            noMatch := true })

/-! ### Pending vectors 11, 15 and 16 (R475) -/

/-- The first pending vector of a context that its boundary admits: not between a transfer and its slot, not within a
chain of fault entries. -/
def Ctx.dueVector (c : Ctx) : Option Nat :=
  if c.slot ≠ .none ∨ c.chain then none
  else if c.vec11 then some 11
  else if c.vec15 then some 15
  else if c.vec16 then some 16
  else none

/-- Take a pending vector that is due in the running context; it is recorded for the preemption list (R225). A load that holds is
no boundary. -/
def State.takePending (s : State) : State :=
  match s.car.running with
  | none => s
  | some n =>
    if s.core.held.isSome ∨ (s.scn.mode ≠ .run ∧ s.scn.mode ≠ .hold) then s else
    match (s.ctx n).dueVector with
    | none => s
    | some v =>
      if s.entryStalls n then s else if !(s.routineGood n hwFault).1 then (s.routineGood n hwFault).2
      else if s.yields n then s.unlessDrained (s.flushOnly n) else
      let s0 := s
      let s := s.updCtx n fun c =>
        if v = 11 then { c with vec11 := false }
        else if v = 15 then { c with vec15 := false }
        else { c with vec16 := false }
      let s := if v = 11 then s.count Reg.EXC_GMOVR else s
      let s := if v = 15 then s else s.recordPre n (preVec + v)
      s0.unlessDrained (s.takeFault n ⟨v, 0, 15, false, none, none⟩)

/-- Switch to the selected context, the outgoing one's instructions in F and D being cancelled (R180), and take what is pending in
the context on the core. -/
def State.dispatch (s : State) : State :=
  let t := s.switch
  (if t.car.running = s.car.running then t else s.cancelYounger.switch).takePending

/-! ### Retirement -/

/-- Where the next instruction of a context stands: after a delay slot the target, else the next word. -/
def Ctx.advance (c : Ctx) : Ctx :=
  match c.slot with
  | .taken t => { c with pc := t, slot := .none, prog := if fld c.prog 31 30 = 2 then 0 else c.prog }
  | _ => { c with pc := c.pc + 2, slot := .none }

/-- A loaded value of the instruction before lands, unless its slot was popped (R140). -/
def Ctx.landOld (c : Ctx) : Ctx :=
  match c.landing with
  | some (pos, v) => { c.landAt c.depth pos v with landing := none }
  | none => c

/-- What retirement does to a context besides its instruction's own effect: the lock counts down where it was in
progress (`lkc` before the instruction), the loaded value lands, the counts advance, a chain of fault entries ends, and an
armed step vector is raised (R96, R140, R218, R441). -/
def Ctx.retire (c : Ctx) (lkc : Nat) : Ctx :=
  let c := c.landOld
  let c := if lkc = 0 then c else c.setLkc (c.lkc - 1)
  { c with
    icnt := c.icnt + 1, retired := c.retired + 1, chain := false, chainLant := false
    vstep := c.vstep - 1, vec15 := c.vec15 || decide (c.vstep = 1) }

/-- A context that STOP found in a held load has reached its boundary, and leaves the core (R192). -/
def State.stoppedCore (s : State) : State :=
  if s.core.held.isNone ∧ s.scn.mode ≠ .run ∧ s.scn.mode ≠ .hold then s.leaveCore else s

/-- The core takes the answer ABORTED to its load: the fault of R57, with ABORTED as its cause. -/
def State.deliverAborted (s : State) : State :=
  match s.core.held with
  | some h => if h.aborted then
      (s.faultFrom { s with core := { s.core with held := none } } h.ctx ⟨3, 6, h.seg, true, none, none⟩).stoppedCore
    else s
  | none => s

/-- An instruction of context n has had its effect: it retires. -/
def State.retire (s : State) (n lkc : Nat) : State :=
  let s := s.sendRel.updCtx n fun c => c.retire lkc
  let s := { s with car := { s.car with retired := s.car.retired + 1 } }
  let s := if (s.ctx n).slot = .none ∧ (s.ctx n).lkc = 0 then s.stepEnds else s
  let s := s.lateReleases
  ((s.takePending).takeHold).programEnd

end Sys2Proof.Machine
end

