-- ==== Sys2Proof/Machine/Compare.lean ====
section
/-! DEFINITION. The address comparators, judged as an instruction reaches W (R439, R440). -/

namespace Sys2Proof.Machine

/-- Note a data access of the instruction that executes. -/
def State.note (s : State) (pa size : Nat) (store : Bool) (v : Word) : State :=
  { s with core := { s.core with accs := s.core.accs ++ [⟨pa, size, store, v⟩] } }

/-- No access stands noted. -/
def State.forget (s : State) : State := { s with core := { s.core with accs := [] } }

/-- The registers of comparator k. -/
def cmpReg (k i : Nat) : Nat := Reg.DBG_CMP + 0x10 * k + 4 * i

/-- The ACTION of comparator k that applies: at a lower level than it needs, HALT and VECTOR act as TRACE at
non-invasive and as off at none; in a pair VECTOR acts as TRACE (R440). -/
def State.cmpAction (s : State) (k : Nat) : Nat :=
  let a := s.f (cmpReg k 0) 2 0
  let l := s.dbgLevel
  if l = 0 then 0
  else if a = 4 ∧ s.role ≠ 0 then 1
  else if 3 ≤ a ∧ l < 2 then 1
  else a

/-- A match: the comparator, whether on data, the address and the value. -/
structure Match where
  k : Nat
  data : Bool
  addr : Nat
  v : Word
  deriving DecidableEq, Repr

/-- What comparator k matches of an instruction of context n fetched at `pa`, and of its data accesses. -/
def State.cmpMatch (s : State) (k n pa : Nat) (accs : List DAcc) : Option Match :=
  let c := s.reg (cmpReg k 0)
  let size := 2 ^ fld c 9 5
  let lo := fld (s.reg (cmpReg k 1)) 22 0 / size * size
  let typ := fld c 4 3
  if !(bit c 16 || decide (fld c 15 10 = n)) then none
  else if typ = 0 then
    if lo ≤ pa ∧ pa < lo + size then some ⟨k, false, pa, 0⟩ else none
  else
    let m := s.reg (cmpReg k 3)
    (accs.find? fun a => overlap a.pa a.size lo size && (if a.store then decide (2 ≤ typ) else typ % 2 == 1)
      && (!bit c 17 || a.v &&& m == s.reg (cmpReg k 2) &&& m)).map fun a => ⟨k, true, a.pa, a.v⟩

/-- Every match of an instruction of context n, before which the state was `s`. -/
def State.cmpMatches (s : State) (n : Nat) (accs : List DAcc) : List Match :=
  if (s.ctx n).noMatch || !s.inRun 11 || decide (s.dbgLevel = 0) then [] else
  (List.range 8).filterMap fun k =>
    if s.cmpAction k = 0 then none
    else s.cmpMatch k n (dBase ((s.ctx n).seg 0) + (s.ctx n).pc.toNat) accs

/-- The MATCH packet. -/
def State.traceMatch (s : State) (n pc : Nat) (m : Match) : State :=
  s.emit 2 ([BitVec.ofNat 8 (m.k + m.data.toNat * 128), BitVec.ofNat 8 n] ++ toBytes pc 3 ++ toBytes m.addr 3
    ++ toBytes m.v.toNat 4)

/-- The bits of DBG_MATCH. -/
def State.hitBits (s : State) (ms : List Match) : State := ms.foldl (fun s m => s.setB Reg.DBG_MATCH m.k) s

/-- What the comparators make of an instruction. -/
inductive Judged where
  | goes (s : State)
  | instead (s : State)

/-- The look-ups of an instruction's loads stay although it does not retire: the fills that it requested go on (R170). -/
def State.keepLookups (pre post : State) : State :=
  State.setReg { pre with core := { pre.core with
      dcache := post.core.dcache, badPar := post.core.badPar
      fills := post.core.fills.map fun f => if pre.core.fills.contains f then f else { f with wp := f.data } } }
    Reg.PIP_DCMISS (post.reg Reg.PIP_DCMISS)

/-- The matches of an instruction are noted in DBG_MATCH, and TRACE and EVENT act. -/
def State.actMatches (pre s : State) (n : Nat) (ms : List Match) : State :=
  ms.foldl (fun s m =>
    if pre.cmpAction m.k = 1 then s.traceMatch n (pre.ctx n).pc.toNat m
    else if pre.cmpAction m.k = 2 then s.fire 116 else s) (s.hitBits ms)

/-- An instruction of context n that took `pre` to `post` reaches W: a HALT or VECTOR comes before it executes, where
HALT is not held off by a lock or a delay slot; TRACE and EVENT act at the match. DESIGN CHOICE: of a HALT and a VECTOR on one
instruction the HALT is taken, and of several of one kind that of the lowest comparator. A vector 14 whose entry its safe point ended is
still pending (R216). -/
def State.judge (pre : State) (n : Nat) (post : State) : Judged :=
  let c := pre.ctx n
  let ms := pre.cmpMatches n post.core.accs
  let post := post.forget
  let kept := pre.keepLookups post
  match c.vec14 with
  | some k => .instead (pre.faultFrom kept n ⟨14, 8 + k, 15, false, none, none⟩)
  | none =>
  if ms.isEmpty then .goes post else
  match ms.find? fun m => pre.cmpAction m.k == 3 with
  | some m =>
    if c.lkc = 0 ∧ c.slot = .none then
      .instead (pre.unlessDrained ((((pre.actMatches kept n ms).drainAll).cancelYounger).enterHalt 1 m.k))
    else
      let s := pre.actMatches post n ms
      let s := if c.lkc = 0 then s else s.setB Reg.DBG_STAT 6
      .goes { s with dbg := { s.dbg with hreq := some (1, m.k) } }
  | none =>
    match ms.find? fun m => pre.cmpAction m.k == 4 with
    | some m => .instead (pre.faultFrom (pre.actMatches kept n ms) n ⟨14, 8 + m.k, 15, false, none, none⟩)
    | none => .goes (pre.actMatches post n ms)

end Sys2Proof.Machine
end

