-- ==== Sys2Proof/Machine/RegRows.lean ====
section
/-! DEFINITION. The rows that read and write registers, by Lantern, a context, the host or a debugger (R5 to R10, R20 to
R23), and the host port (R28 to R31). -/

namespace Sys2Proof.Machine

abbrev RegOut := Host.Outcome State Fault Refusal

/-! ### Who may reach a register -/

/-- A context executes with PRV, as the register pages ask (R110). -/
def State.ctxWrites (s : State) : Bool :=
  match s.car.running with
  | none => false
  | some n => s.coreRuns && bit (s.ctx n).sw swPRV

/-- The debugger's requests are served: PD11 in RUN, a connection, and a level above none. -/
def State.dbgServed (s : State) : Bool := s.inRun 11 && s.dbg.conn && decide (1 ≤ s.dbgLevel)

/-- The writer exists in this state; the host does but while POR_N is 0. -/
def State.present (s : State) (who : Writer) : Bool :=
  match who with
  | .host => !s.pwr.por
  | .lantern => s.lanternRuns
  | .context => s.ctxWrites
  | .debugger => s.dbgServed

/-- The host port's answer (R30). -/
def State.answer (s : State) (resp : Nat) (data : Word) : State :=
  { s with hst := { s.hst with resp := resp, rdata := if resp = 0 then data else 0 } }

/-- What the core makes of a register write answered DOMAIN_OFF (R17, R178): the machine check of a drain for a context's store,
of an access for Lantern's. -/
def State.coreOff (s : State) (who : Writer) (a : Nat) : State :=
  match who with
  | .context => s.mcheck 3 s.car.running a
  | .lantern => s.mcheck 2 none a
  | _ => s

/-- And of a read: the segment-access fault of the running context, REASON 5. No selector is named by these rows. -/
def State.coreOffRead (s : State) (who : Writer) (a : Nat) : State :=
  match who, s.car.running with
  | .context, some n => s.takeFault n ⟨3, 5, 15, false, none, none⟩
  | _, _ => s.coreOff who a

/-- A word written to a register by a writer; the host writes through its window, which PD8 serves (R23, R31). A load that a reset
so started aborts faults at once (R57). -/
def State.regRow (s : State) (who : Writer) (a : Nat) (v : Word) : State :=
  State.deliverAborted <| if !s.present who || (decide (who = .debugger) && !s.dbgMay a v) then s
  else if who = .host then
    if !s.serves 8 then (s.domainOff).answer 2 0 else
    let r := s.accessWrite .host a v
    r.1.answer r.2 0
  else
    let r := s.accessWrite who a v
    if r.2 = 2 then r.1.coreOff who a else r.1

/-- The same for a read. -/
def State.regRead (s : State) (who : Writer) (a : Nat) : State :=
  if !s.present who then s
  else if who = .host then
    if !s.serves 8 then (s.domainOff).answer 2 0 else
    let r := s.accessRead .host true a
    r.2.1.answer r.2.2 r.1
  else
    let r := s.accessRead who false a
    if r.2.2 = 2 then r.2.1.coreOffRead who a else r.2.1

/-! ### Registers by address -/

/-- REGISTER_WRITE: a word to any register address (R9, R10, R20). -/
def execRegisterWrite (who : Writer) (addr : Nat) (v : Word) (s : State) : RegOut :=
  .next (if addr % 4 ≠ 0 ∨ addr < regBase ∨ regEnd ≤ addr then s else s.regRow who addr v)

/-- PWR_RST with BLK (R54). -/
def execPwrRstBlock (who : Writer) (v : Word) (s : State) : RegOut := .next (s.regRow who Reg.PWR_RST v)
/-- PWR_RST with domain bits (R55). -/
def execPwrRstDomain (who : Writer) (v : Word) (s : State) : RegOut := .next (s.regRow who Reg.PWR_RST v)
/-- PWR_CTRL with domain targets (R46). -/
def execPwrCtrlRequest (who : Writer) (v : Word) (s : State) : RegOut := .next (s.regRow who Reg.PWR_CTRL v)
/-- PWR_CTRL with SLEEP (R53). -/
def execPwrCtrlSleep (who : Writer) (v : Word) (s : State) : RegOut := .next (s.regRow who Reg.PWR_CTRL v)
/-- STR_CLEAR (R86). -/
def execStrClearWrite (who : Writer) (v : Word) (s : State) : RegOut := .next (s.regRow who Reg.STR_CLEAR v)
/-- HST_DOORBELL, SUBMIT (R407). -/
def execDoorbellSubmit (who : Writer) (v : Word) (s : State) : RegOut := .next (s.regRow who Reg.HST_DOORBELL v)
/-- HST_DOORBELL, RING (R407). -/
def execDoorbellRing (who : Writer) (v : Word) (s : State) : RegOut := .next (s.regRow who Reg.HST_DOORBELL v)
/-- CAR_CINIT (R187). -/
def execCarCinitWrite (who : Writer) (v : Word) (s : State) : RegOut := .next (s.regRow who Reg.CAR_CINIT v)
/-- CAR_PRIO of context n (R191). -/
def execCarPrioWrite (who : Writer) (n : Nat) (v : Word) (s : State) : RegOut :=
  .next (if 63 < n then s else s.regRow who (Reg.CAR_PRIO + 4 * n) v)
/-- CAR_TMR of timer n (R195). -/
def execTimerWrite (who : Writer) (n : Nat) (v : Word) (s : State) : RegOut :=
  .next (if 15 < n then s else s.regRow who (Reg.CAR_TMR + 4 * n) v)
/-- SCN_CTRL with BREAK (R270). -/
def execScnBreakWrite (who : Writer) (v : Word) (s : State) : RegOut := .next (s.regRow who Reg.SCN_CTRL v)
/-- PIP_CTRL with ICINV (R180). -/
def execPipIcinv (who : Writer) (v : Word) (s : State) : RegOut := .next (s.regRow who Reg.PIP_CTRL v)
/-- PIP_CTRL with DCINV (R180). -/
def execPipDcinv (who : Writer) (v : Word) (s : State) : RegOut := .next (s.regRow who Reg.PIP_CTRL v)
/-- PIP_CTRL with BPINV (R180). -/
def execPipBpinv (who : Writer) (v : Word) (s : State) : RegOut := .next (s.regRow who Reg.PIP_CTRL v)
/-- BEA_CMP of channel m (R329). -/
def execBeaCmpWrite (who : Writer) (m : Nat) (v : Word) (s : State) : RegOut :=
  .next (if 15 < m then s else s.regRow who (Reg.BEA_CMP + 0x20 * m) v)
/-- GOV_TDATA (R337). -/
def execGovTdataWrite (who : Writer) (v : Word) (s : State) : RegOut := .next (s.regRow who Reg.GOV_TDATA v)
/-- FLT_CLR (R461). -/
def execFltClrWrite (who : Writer) (v : Word) (s : State) : RegOut := .next (s.regRow who Reg.FLT_CLR v)
/-- DBG_VSTEP (R441). -/
def execDbgVstepWrite (who : Writer) (v : Word) (s : State) : RegOut := .next (s.regRow who Reg.DBG_VSTEP v)

/-- The reload that a keyed write of MCS_RELOAD starts, with what its read-back finds (R249, R254). -/
def execMcsReloadWrite (who : Writer) (v : Word) (readBackOk : Bool) (s : State) : RegOut :=
  .next (if !s.present who ∨ (who = .host ∧ !s.serves 8) ∨ (who = .debugger ∧ s.dbgLevel < 2) ∨ !s.serves 3
      ∨ (who ≠ .lantern && setsE (s.shown Reg.MCS_RELOAD) v (fieldsAt Reg.MCS_RELOAD) && !s.expert) then
      s.regRow who Reg.MCS_RELOAD v
    else
      let s := (s.touch 3).mcsReload v readBackOk
      if who = .host then s.answer 0 0 else s)

/-- A live read of HST_REPLY of a slot consumes its reply (R408). -/
def execReplyStatusRead (who : Writer) (slot : Nat) (s : State) : RegOut :=
  .next (if 15 < slot then s else s.regRead who (Reg.HST_REPLY + 4 * slot))

/-- A read of CLK_TIMELO latches CLK_TIMEHI (R61). -/
def execClkTimeloRead (who : Writer) (s : State) : RegOut := .next (s.regRead who Reg.CLK_TIMELO)

/-! ### The host port (R22, R28 to R31) -/

/-- The register that a window offset names: the HST page at 0x04_0000, the expert mirror at 0x08_0000. -/
def hostReg (off : Nat) : Option Nat :=
  if 0x40000 ≤ off ∧ off < 0x41000 then some (pageBase 0x0D + (off - 0x40000))
  else if 0x80000 ≤ off ∧ off < 0x94000 then some (regBase + (off - 0x80000))
  else none

/-- An offset of the host registers that the HST page does not list answers ERROR (R22). -/
def hostUnlisted (off : Nat) : Bool :=
  match hostReg off with
  | none => true
  | some a => decide (off < 0x41000) && (fieldsAt a).isEmpty

/-- A host read of a word of XB (R258, R264). -/
def State.hostXbRead (s : State) (a : Nat) : State :=
  if s.mappedOut a then s.answer 1 0 else
  let r := s.bankRead a 4 2
  match r.1 with
  | some v => r.2.answer 0 (BitVec.ofNat 32 v)
  | none => r.2.answer 1 0

/-- The bytes that a write's byte enables take, over the word before it. -/
def mergeBytes (be : Nat) (old new : Word) : Word :=
  (List.range 4).foldl (fun w i => if be / 2 ^ i % 2 = 1 then setFld w (8 * i + 7) (8 * i) (fld new (8 * i + 7) (8 * i)) else w) old

/-- A host write to a busy slot is noted (R405, R410). -/
def State.slotWritten (s : State) (a : Nat) : State :=
  let n := (a - xbBase) / 256
  if 0x1000 ≤ a - xbBase then s else
  let x := s.slot n
  if x.st = 1 ∨ x.st = 2 then (s.setSlot n { x with written := true }).setB Reg.HST_ERR 1 else s

/-- The core port has written the 64-bit word of an address since the host port's last command. -/
def State.coreWroteWord (s : State) (a : Nat) : Bool :=
  s.banks.xbCore.any fun e => decide (e.1 / 8 ≤ a / 8) && decide (a / 8 ≤ (e.1 + e.2 - 1) / 8)

/-- The host port has taken a command: what the core port writes from here on falls into later cycles of the port. -/
def State.hostTook (s : State) : State := { s with banks := { s.banks with xbCore := [] } }

/-- A host write of a word of XB. Of a word that the core port has written since the host port's last command, whether the write
falls in the same fc is a free value: it is discarded then, counted and answered COLLIDED (R260, R261). -/
def State.hostXbWrite (s : State) (a : Nat) (v : Word) (be : Nat) : State :=
  if s.mappedOut a then s.answer 1 0
  else if s.coreWroteWord a ∧ Config.sameCycle s.free then ((s.tickFree.count Reg.MEM_XCOLL).fire 107).answer 3 0
  else
  let s := if s.coreWroteWord a then s.tickFree else s
  let r := s.eccRead a 2
  if !r.1 then r.2.answer 1 0 else
  let s := (r.2.setEcc a .none).mwrite a 4 (mergeBytes be (r.2.w32 a) v).toNat
  (s.slotWritten a).answer 0 0

/-- HOST_READ: one word of XB, the host registers or the expert mirror. -/
def execHostRead (wordAddr : Nat) (s : State) : RegOut :=
  let off := 4 * wordAddr
  .next (if s.pwr.por then s else State.hostTook (
    if !s.serves 8 then (s.domainOff).answer 2 0
    else if off < 0x40000 then s.hostXbRead (xbBase + off)
    else if hostUnlisted off then s.answer 1 0
    else match hostReg off with
      | some a => s.regRead .host a
      | none => s.answer 1 0))

/-- HOST_WRITE: one word, with byte enables; none set changes nothing, and a register is written only whole. DESIGN CHOICE: at an
offset that R22 does not list the answer is ERROR whatever HP_BE is (R30), though R28 gives OK to a write with HP_BE 0. -/
def execHostWrite (wordAddr : Nat) (v : Word) (be : Nat) (s : State) : RegOut :=
  let off := 4 * wordAddr
  let be := be % 16
  .next (if s.pwr.por then s else State.hostTook (
    if !s.serves 8 then (s.domainOff).answer 2 0
    else if off < 0x40000 then (if be = 0 then s.answer 0 0 else s.hostXbWrite (xbBase + off) v be)
    else if hostUnlisted off then s.answer 1 0
    else if be = 0 then s.answer 0 0
    else if be ≠ 15 then s.answer 1 0
    else match hostReg off with
      | some a => s.regRow .host a v
      | none => s.answer 1 0))

end Sys2Proof.Machine
end

