-- ==== Sys2Proof/Machine/Run.lean ====
section
/-! DEFINITION. How an instruction of the running context is issued, checked and retired (R104, R105, R126, R131, R144,
R159, R160), around the effect its own rule gives it. -/

namespace Sys2Proof.Machine

/-- What the checks before an instruction's own effect need to know of it (R126): its opcode word, whether it is
privileged, forbidden in a delay slot (R131), in a lock (R144), in a KX4 context (R159), and in which contexts it may
run (R145). -/
structure Insn where
  code : Nat := 0
  priv : Bool := false
  noSlot : Bool := false
  noLock : Bool := false
  k4ill : Bool := false
  only0 : Bool := false
  not0 : Bool := false
  long : Bool := false
  deriving DecidableEq, Repr

/-- The outcome of an instruction's issue: nothing executes, a fault is taken, the instruction is abandoned because a
store word it needs has bad parity (R248), or it executes in context n. -/
inductive Issue where
  | idle
  | fault (n : Nat) (s : State) (t : Trap)
  | abandon (s : State)
  | go (n : Nat) (s : State)

/-- The entry word of an opcode (R236). -/
def entryWord (k4 : Bool) (code : Nat) : Nat :=
  if code < 0x700 then code
  else if code < 0xF00 then 1820
  else if code < 0x1000 then 3584 + (code - 0xF00)
  else if code < 0x2000 then 1792 + (code - 0x1000) / 0x100
  else if code < 0x3000 then 1810
  else if code < 0x4000 then 1811
  else if code < 0x8000 then (if k4 then 1812 else 1809)
  else 1808

/-- The first cause of an illegal instruction that applies in context n, in the order of R126. -/
def State.illegalReason (s : State) (n : Nat) (i : Insn) : Option Nat :=
  let c := s.ctx n
  if i.k4ill && s.k4 n then some 4
  else if i.noSlot && decide (c.slot ≠ .none) then some 1
  else if i.noLock && decide (c.lkc ≠ 0) then some 2
  else if (i.only0 && decide (n ≠ 0)) || (i.not0 && decide (n = 0)) then some 3
  else none

/-- Fetch at PC through SEG0 (R104, R105): the instruction, or the fault it raises as it would execute. A line that is held is
read from the core; a miss reads the bank (R163, R258). -/
def State.fetch (s : State) (n : Nat) : Except Trap State :=
  let c := s.ctx n
  match s.check c 0 .fetch c.pc.toNat 2 2 with
  | .error t => .error t
  | .ok a =>
    let last := dBase (c.seg 0) + dLimit (c.seg 0)
    if s.iHit a then .ok (s.iLookup a last)
    else if !s.serves (domainOf a) then .error ⟨3, 5, 0, true, none, none⟩
    else match (s.touch (domainOf a)).eccRead a 0 with
      | (false, _) => .error ⟨3, 7, 0, false, some a, none⟩
      | (true, s) => .ok (s.iLookup a last)

/-- The entry word that the decoder selects: an instruction that fails its checks goes to the word of the illegal
instruction (R237). -/
def State.entryOf (s : State) (n : Nat) (i : Insn) : Nat :=
  if (s.illegalReason n i).isSome then 1820 else entryWord (s.k4 n) i.code

/-- Issue an instruction in the running context. -/
def State.issue (s : State) (i : Insn) : Issue :=
  match s.car.running with
  | none => .idle
  | some n =>
    if !s.coreRuns || s.core.held.isSome || s.replayStalls then .idle
    else match s.fetch n with
      | .error t => .fault n s t
      | .ok s => match s.routineGood n (s.entryOf n i) with
        | (false, s) => .abandon s
        | (true, s) => match s.illegalReason n i with
          | some r => .fault n s ⟨1, r, 15, false, none, none⟩
          | none =>
            if i.priv && !bit (s.ctx n).sw swPRV then .fault n s ⟨13, 0, 15, false, none, none⟩
            else match s.resumeHalf n with
              | .error t => .fault n s t
              | .ok s => .go n s

/-- The context as its next instruction finds it: a loaded value on its way is the old content for this instruction
(R140), and a long instruction's progress is dropped by any other instruction (R150). -/
def Ctx.begin (c : Ctx) (long : Bool) : Ctx :=
  { c with
    landing := c.load, load := none, noMatch := false, yielded := false
    prog := if !long && decide (fld c.prog 31 30 = 1) then 0 else c.prog }

/-! ### What a mispredicted path leaves (R169, R172, R176, R177) -/

/-- The opcode word at an offset of context n's SEG0, as far as it can be fetched. -/
def State.codeAt (s : State) (n : Nat) (pc : Word) : Option Nat :=
  match s.check (s.ctx n) 0 .fetch pc.toNat 2 2 with
  | .ok a => some (s.mread a 2)
  | .error _ => none

/-- F fetches at an offset for context n; true where the line is at hand. -/
def State.peek (s : State) (n : Nat) (pc : Word) : Bool × State :=
  match s.check (s.ctx n) 0 .fetch pc.toNat 2 2 with
  | .error _ => (false, s)
  | .ok a => (s.iHit a, s.iLookup a (dBase ((s.ctx n).seg 0) + dLimit ((s.ctx n).seg 0)))

/-- The instruction writes TOS in X, so that the offset of a load behind it is not ready in D (R169): those of R137, the stack
permutations apart. -/
def writesTosInX (code : Nat) : Bool := decide (0x000B ≤ code) && decide (code ≤ 0x0061)

/-- The size of a load-class instruction's access, of the code 0x0200 + 8 × op + selector (R139). -/
def loadSize (op : Nat) : Nat := if op = 0 then 4 else if op ≤ 2 then 2 else 1

/-- A load in D at an offset of context n, whose instruction ahead has the code `ahead`, launches early and does not retire: a miss
requests its line (R169, R170). Its offset is the cached TOS. -/
def State.earlyLaunch (s : State) (n : Nat) (pc : Word) (ahead : Nat) : State :=
  let c := s.ctx n
  match s.codeAt n pc with
  | none => s
  | some w =>
    if w < 0x200 ∨ 0x228 ≤ w ∨ s.f Reg.PIP_CTRL 1 1 = 1 ∨ c.oc = [] ∨ writesTosInX ahead then s else
    match s.check c (w % 8) .load (c.oc.headD 0).toNat (loadSize ((w - 0x200) / 8)) (loadSize ((w - 0x200) / 8)) with
    | .error _ => s
    | .ok a =>
      if isNS (c.seg (w % 8)) a || !s.cacheable a then s
      else match s.sbHit a (loadSize ((w - 0x200) / 8)) with
        | .none => s.dLookup a true
        | _ => s

/-- The two instructions that a mispredicted transfer of context n has had fetched from `pc` on, behind an instruction of the code
`ahead` (R172): the first has been in D, the second only in F; a fetch that misses holds what follows it. -/
def State.wrongPath (s : State) (n : Nat) (pc : Word) (ahead : Nat) : State :=
  let r := s.peek n pc
  if !r.1 then r.2 else ((r.2.earlyLaunch n pc ahead).peek n (pc + 2)).2

/-- The instruction at context n's PC, which has been fetched, did not wait for a fill. -/
def State.slotInTime (s : State) (n : Nat) : Bool :=
  match s.check (s.ctx n) 0 .fetch (s.ctx n).pc.toNat 2 2 with
  | .ok a => !s.filling false (a / 32)
  | .error _ => false

/-- The slot of a mispredicted transfer has executed, from `pre` to s: what the wrong path leaves, if the slot's own fetch did not
miss. -/
def State.afterSlot (s pre : State) (n : Nat) : State :=
  match (pre.ctx n).wrong with
  | none => s
  | some w =>
    let s := s.updCtx n fun c => { c with wrong := none }
    if pre.slotInTime n then s.wrongPath n w ((pre.codeAt n (pre.ctx n).pc).getD 0) else s

/-- An instruction of context n, issued in s0 and executed from `pre` to `post`, is judged and, where nothing comes instead of it,
retires. It waits where a store that has to drain before it stalls (R19). -/
def State.judgeRetire (s0 pre : State) (n : Nat) (post : State) (lkc : Nat) : State :=
  s0.unlessDrained (match pre.judge n post with
    | .goes s => (s.afterSlot pre n).retire n lkc
    | .instead s => s)

/-- Execute an instruction whose body places PC itself. -/
def State.runFlow (s : State) (i : Insn) (body : Nat → State → Except Trap State) : State :=
  match s.issue i with
  | .idle => s
  | .fault n s' t => s.faultFrom s' n t
  | .abandon s' => s'
  | .go n s' =>
    match body n (s'.updCtx n fun c => c.begin i.long) with
    | .error t => s.faultFrom s' n t
    | .ok s'' => s.judgeRetire s' n s'' (s'.ctx n).lkc

/-- Execute an instruction after which the next one in order, or the target of the transfer whose slot it fills,
follows. -/
def State.runNext (s : State) (i : Insn) (body : Nat → State → Except Trap State) : State :=
  s.runFlow i fun n s => match body n s with
    | .error t => .error t
    | .ok s => .ok (s.updCtx n Ctx.advance)

/-- Execute an instruction that changes nothing but its own context. -/
def State.runCtx (s : State) (i : Insn) (body : Ctx → Except Trap Ctx) : State :=
  s.runNext i fun n s => match body (s.ctx n) with
    | .error t => .error t
    | .ok c => .ok (s.setCtx n c)

/-- Pop k operands (TOS first), then push results and replace the status word. -/
def State.stackOp (s : State) (i : Insn) (k : Nat) (f : Ctx → List Word → Except Trap (List Word × Word)) : State :=
  s.runNext i fun n s => match s.popN n k with
    | .error t => .error t
    | .ok (xs, s) => match f (s.ctx n) xs with
      | .error t => .error t
      | .ok (rs, sw) => match s.pushAll n rs with
        | .error t => .error t
        | .ok s => .ok (s.updCtx n fun c => { c with sw := sw })

/-- A two-operand operation ( a b -- r ) with flags. -/
def State.binOp (s : State) (i : Insn) (f : Word → Word → Word → Word × Word) : State :=
  s.stackOp i 2 fun c xs =>
    let (r, sw) := f c.sw (xs.getD 1 0) (xs.getD 0 0)
    .ok ([r], sw)

/-- A one-operand operation ( a -- r ) with flags. -/
def State.unOp (s : State) (i : Insn) (f : Word → Word → Word × Word) : State :=
  s.stackOp i 1 fun c xs =>
    let (r, sw) := f c.sw (xs.getD 0 0)
    .ok ([r], sw)

/-- A permutation of the top k entries without flags. -/
def State.permOp (s : State) (i : Insn) (k : Nat) (f : List Word → List Word) : State :=
  s.stackOp i k fun c xs => .ok (f xs, c.sw)

/-- Push a value computed from the context, without flags. -/
def State.pushOp (s : State) (i : Insn) (f : Nat → State → Word) : State :=
  s.runNext i fun n s => s.push n (f n s)

/-- Prediction is off for the instructions of context n (R175). -/
def State.predOff (s : State) (n : Nat) : Bool :=
  decide (s.f Reg.PIP_CTRL 0 0 = 1) || s.scn.gdet || bit (s.ctx n).sw swDET || s.k4 n

/-- The predictor's counter of a branch predicts it taken (R173). -/
def State.predictsTaken (s : State) (pc : Word) : Bool :=
  decide (2 ≤ (Map.get (fun _ => (0 : BitVec 2)) s.core.bp (fld pc 10 1)).toNat)

/-- A conditional branch of context n, and where it is fetched from behind its slot when the prediction is wrong (R172): the path
that was predicted, or the next instruction in order with prediction off. -/
def State.wrongOfBranch (s : State) (n : Nat) (pc target : Word) (taken : Bool) : Option Word :=
  if s.predOff n then (if taken then some (pc + 4) else none)
  else if s.predictsTaken pc == taken then none
  else some (if taken then pc + 4 else target)

/-- A retired conditional branch updates its counter and GH, and pays when it was mispredicted (R133, R173). DESIGN CHOICE: a branch
with condition AL is one of them; R176 shows no prediction for it. -/
def State.predictBranch (s : State) (n : Nat) (pc : Word) (taken : Bool) : State :=
  if s.predOff n then (if taken then s.count Reg.PIP_MISPRED else s) else
  let k := fld pc 10 1
  let ctr := Map.get (fun _ => (0 : BitVec 2)) s.core.bp k
  let s := if s.predictsTaken pc == taken then s else s.count Reg.PIP_MISPRED
  let ctr' : BitVec 2 := if taken then BitVec.ofNat 2 (min 3 (ctr.toNat + 1)) else BitVec.ofNat 2 (ctr.toNat - 1)
  { s with core := { s.core with
      bp := Map.set (fun _ => 0) s.core.bp k ctr'
      gh := (s.core.gh <<< 1) ||| BitVec.ofNat 8 taken.toNat } }

/-- A direct jump, call or return pays only with prediction off (R133). -/
def State.predictDirect (s : State) (n : Nat) : State :=
  if s.predOff n then s.count Reg.PIP_MISPRED else s

/-- Where a direct transfer at pc is wrongly fetched from behind its slot: with prediction off, the next instruction in order. -/
def State.wrongOfDirect (s : State) (n : Nat) (pc : Word) : Option Word := if s.predOff n then some (pc + 4) else none

/-- The table's index of an indirect transfer (R174). -/
def State.ittIndex (s : State) (pc : Word) : Nat := fld pc 8 1 ^^^ s.core.gh.toNat

/-- Where an indirect transfer at pc is wrongly fetched from behind its slot: the table's target, or the next instruction in order
where it has none. -/
def State.wrongOfIndirect (s : State) (n : Nat) (pc target : Word) : Option Word :=
  if s.predOff n then some (pc + 4) else
  match Map.get (fun _ => none) s.core.itt (s.ittIndex pc) with
  | some t => if t = fld target 21 1 then none else some (BitVec.ofNat 32 (2 * t))
  | none => some (pc + 4)

/-- A retired indirect transfer writes its target, and pays when the table had no or another one (R174). -/
def State.predictIndirect (s : State) (n : Nat) (pc target : Word) : State :=
  if s.predOff n then s.count Reg.PIP_MISPRED else
  let k := s.ittIndex pc
  let t := fld target 21 1
  let s := if Map.get (fun _ => none) s.core.itt k = some t then s else s.count Reg.PIP_MISPRED
  { s with core := { s.core with itt := Map.set (fun _ => none) s.core.itt k (some t) } }

end Sys2Proof.Machine
end

