-- ==== Sys2Proof/Machine/IsaStack.lean ====
section
/-! DEFINITION. Constants, operand-stack permutations, the two-stack moves, integer arithmetic, logic, shifts and
compares (R127, R137). -/

namespace Sys2Proof.Machine

/-- The outcome of an instruction. -/
abbrev Out := Host.Outcome State Fault Refusal

/-! ### Constants and permutations -/

/-- LIT pushes the sign-extended constant (R127). -/
def execLit (imm : BitVec 15) (s : State) : Out :=
  .next (s.pushOp { code := 0x8000 + imm.toNat } fun _ _ => imm.signExtend 32)

/-- LCAT ( a b -- (a << 15) OR b[14:0] ) (R127). -/
def execLcat (s : State) : Out :=
  .next (s.binOp { code := 0x0039 } fun sw a b => logicFlags sw ((a <<< 15) ||| (b &&& 0x7FFF)))

def execNop (s : State) : Out := .next (s.runNext { code := 0x0000 } fun _ s => .ok s)
def execDrop (s : State) : Out := .next (s.permOp { code := 0x0001 } 1 fun _ => [])
/-- DUP ( a -- a a ): TOS stays in its slot and a copy is pushed. -/
def execDup (s : State) : Out :=
  .next (s.runNext { code := 0x0002 } fun n s => match s.need n 1 with
    | .error t => .error t
    | .ok s => s.push n ((s.ctx n).top 0))
def execSwap (s : State) : Out := .next (s.permOp { code := 0x0003 } 2 fun xs => [xs.getD 0 0, xs.getD 1 0])
/-- OVER ( a b -- a b a ). -/
def execOver (s : State) : Out :=
  .next (s.runNext { code := 0x0004 } fun n s => match s.need n 2 with
    | .error t => .error t
    | .ok s => s.push n ((s.ctx n).top 1))
/-- ROT ( a b c -- b c a ). -/
def execRot (s : State) : Out :=
  .next (s.permOp { code := 0x0005 } 3 fun xs => [xs.getD 1 0, xs.getD 0 0, xs.getD 2 0])
/-- NROT ( a b c -- c a b ). -/
def execNrot (s : State) : Out :=
  .next (s.permOp { code := 0x0006 } 3 fun xs => [xs.getD 0 0, xs.getD 2 0, xs.getD 1 0])
/-- NIP ( a b -- b ). -/
def execNip (s : State) : Out := .next (s.permOp { code := 0x0007 } 2 fun xs => [xs.getD 0 0])
/-- TUCK ( a b -- b a b ). -/
def execTuck (s : State) : Out :=
  .next (s.permOp { code := 0x0008 } 2 fun xs => [xs.getD 0 0, xs.getD 1 0, xs.getD 0 0])
/-- DUP2 ( a b -- a b a b ). -/
def execDup2 (s : State) : Out :=
  .next (s.runNext { code := 0x0009 } fun n s => match s.need n 2 with
    | .error t => .error t
    | .ok s => s.pushAll n [(s.ctx n).top 1, (s.ctx n).top 0])
def execDrop2 (s : State) : Out := .next (s.permOp { code := 0x000A } 2 fun _ => [])
/-- DEPTH pushes the logical depth before the push (R90). -/
def execDepth (s : State) : Out :=
  .next (s.pushOp { code := 0x000B } fun n s => BitVec.ofNat 32 (s.ctx n).depth)

/-! ### Moves between the stacks (R92) -/

/-- TOR ( a -- ) R: ( -- a ). -/
def execTor (s : State) : Out :=
  .next (s.runNext { code := 0x000C } fun n s => match s.popN n 1 with
    | .error t => .error t
    | .ok (xs, s) => s.rpush n (xs.getD 0 0))
/-- FROMR ( -- a ) R: ( a -- ). -/
def execFromr (s : State) : Out :=
  .next (s.runNext { code := 0x000D } fun n s => match s.rpop n with
    | .error t => .error t
    | .ok (x, s) => s.push n x)
/-- RFETCH ( -- a ) R: ( a -- a ). -/
def execRfetch (s : State) : Out :=
  .next (s.runNext { code := 0x000E } fun n s => match s.rneed n with
    | .error t => .error t
    | .ok s => s.push n ((s.ctx n).rc.headD 0))

/-! ### Arithmetic (R111, R112) -/

def execAdd (s : State) : Out := .next (s.binOp { code := 0x0010 } fun sw a b => addFlags sw a b false)
def execSub (s : State) : Out := .next (s.binOp { code := 0x0011 } fun sw a b => subFlags sw a b true)
def execAdds (s : State) : Out := .next (s.binOp { code := 0x0012 } addsFlags)
def execSubs (s : State) : Out := .next (s.binOp { code := 0x0013 } subsFlags)
def execAdc (s : State) : Out := .next (s.binOp { code := 0x0014 } fun sw a b => addFlags sw a b (bit sw swC))
def execSbc (s : State) : Out := .next (s.binOp { code := 0x0015 } fun sw a b => subFlags sw a b (bit sw swC))
def execNeg (s : State) : Out := .next (s.unOp { code := 0x0016 } fun sw a => subFlags sw 0 a true)
def execNegs (s : State) : Out := .next (s.unOp { code := 0x0017 } fun sw a => subsFlags sw 0 a)

/-- CMP ( a b -- ): the flags of a − b. -/
def execCmp (s : State) : Out :=
  .next (s.stackOp { code := 0x0018 } 2 fun c xs => .ok ([], (subFlags c.sw (xs.getD 1 0) (xs.getD 0 0) true).2))
/-- TST ( a -- a ): Z and N of a; TOS stays in its slot. -/
def execTst (s : State) : Out :=
  .next (s.runNext { code := 0x0019 } fun n s => match s.need n 1 with
    | .error t => .error t
    | .ok s => .ok (s.updCtx n fun c => { c with sw := setZN c.sw (c.top 0) }))

/-- A compare a − b that pushes a chosen result. -/
def State.cmpOp (s : State) (i : Insn) (f : Word → Word → Word) : State :=
  s.binOp i fun sw a b => (f a b, (subFlags sw a b true).2)

def execMin (s : State) : Out := .next (s.cmpOp { code := 0x001A } fun a b => if a.slt b then a else b)
def execMax (s : State) : Out := .next (s.cmpOp { code := 0x001B } fun a b => if a.slt b then b else a)
def execSeq (s : State) : Out := .next (s.cmpOp { code := 0x0048 } fun a b => truth (a == b))
def execSne (s : State) : Out := .next (s.cmpOp { code := 0x0049 } fun a b => truth (a != b))
def execSlt (s : State) : Out := .next (s.cmpOp { code := 0x004A } fun a b => truth (a.slt b))
def execSle (s : State) : Out := .next (s.cmpOp { code := 0x004B } fun a b => truth (a.sle b))
def execSgt (s : State) : Out := .next (s.cmpOp { code := 0x004C } fun a b => truth (b.slt a))
def execSge (s : State) : Out := .next (s.cmpOp { code := 0x004D } fun a b => truth (b.sle a))
def execSltu (s : State) : Out := .next (s.cmpOp { code := 0x004E } fun a b => truth (a.ult b))
def execSgeu (s : State) : Out := .next (s.cmpOp { code := 0x004F } fun a b => truth (b.ule a))

/-- The signed and unsigned products. -/
def sprod (a b : Word) : Int := a.toInt * b.toInt
def uprod (a b : Word) : Nat := a.toNat * b.toNat

def execMul (s : State) : Out :=
  .next (s.binOp { code := 0x0020 } fun sw a b => mulFlags sw (a * b) (!fitsS32 (sprod a b)))
def execMulh (s : State) : Out :=
  .next (s.binOp { code := 0x0021 } fun sw a b =>
    mulFlags sw (BitVec.ofInt 32 (Int.fdiv (sprod a b) (2 ^ 32))) (!fitsS32 (sprod a b)))
def execMulhu (s : State) : Out :=
  .next (s.binOp { code := 0x0022 } fun sw a b =>
    mulFlags sw (BitVec.ofNat 32 (uprod a b / 2 ^ 32)) (decide (2 ^ 32 ≤ uprod a b)))

/-- A divide or remainder: a zero divisor faults while EXC_CTRL.DZF is 1, and always in a KX4 context (R114, R212,
R159). -/
def State.divOp (s : State) (code : Nat) (op : DivOp) : State :=
  s.runNext { code := code } fun n s => match s.popN n 2 with
    | .error t => .error t
    | .ok (xs, s) =>
      let a := xs.getD 1 0
      let b := xs.getD 0 0
      if b = 0 ∧ (s.f Reg.EXC_CTRL 0 0 = 1 ∨ s.k4 n = true) then .error ⟨5, 0, 15, false, none, none⟩ else
      let (r, sw) := divFlags op (s.ctx n).sw a b
      match s.push n r with
      | .error t => .error t
      | .ok s => .ok (s.updCtx n fun c => { c with sw := sw })

def execDiv (s : State) : Out := .next (s.divOp 0x0024 .div)
def execDivs (s : State) : Out := .next (s.divOp 0x0025 .divs)
def execDivu (s : State) : Out := .next (s.divOp 0x0026 .divu)
def execRem (s : State) : Out := .next (s.divOp 0x0027 .rem)
def execRemu (s : State) : Out := .next (s.divOp 0x0028 .remu)

/-! ### Logic -/

def execAnd (s : State) : Out := .next (s.binOp { code := 0x0030 } fun sw a b => logicFlags sw (a &&& b))
def execOr (s : State) : Out := .next (s.binOp { code := 0x0031 } fun sw a b => logicFlags sw (a ||| b))
def execXor (s : State) : Out := .next (s.binOp { code := 0x0032 } fun sw a b => logicFlags sw (a ^^^ b))
def execNot (s : State) : Out := .next (s.unOp { code := 0x0033 } fun sw a => logicFlags sw (~~~a))
def execSxb (s : State) : Out := .next (s.unOp { code := 0x0034 } fun sw a => logicFlags sw (sext 8 a.toNat))
def execSxh (s : State) : Out := .next (s.unOp { code := 0x0035 } fun sw a => logicFlags sw (sext 16 a.toNat))
def execZxb (s : State) : Out := .next (s.unOp { code := 0x0036 } fun sw a => logicFlags sw (a &&& 0xFF))
def execZxh (s : State) : Out := .next (s.unOp { code := 0x0037 } fun sw a => logicFlags sw (a &&& 0xFFFF))

/-- The number of leading zeros of a word, 0 to 32. -/
def clz (a : Word) : Nat := if a = 0 then 32 else 31 - a.toNat.log2
def execClz (s : State) : Out := .next (s.unOp { code := 0x0038 } fun sw a => logicFlags sw (BitVec.ofNat 32 (clz a)))

/-! ### Shifts (R113, R159) -/

/-- A shift ( a n -- r ). -/
def State.shiftOp (s : State) (code : Nat) (f : Word → Nat → Word × Bool) : State :=
  s.runNext { code := code } fun n s => match s.popN n 2 with
    | .error t => .error t
    | .ok (xs, s) =>
      let (r, sw) := shiftFlags (s.ctx n).sw (xs.getD 1 0) (xs.getD 0 0).toNat (s.k4 n) f
      match s.push n r with
      | .error t => .error t
      | .ok s => .ok (s.updCtx n fun c => { c with sw := sw })

def execShl (s : State) : Out := .next (s.shiftOp 0x0040 shlRes)
def execShr (s : State) : Out := .next (s.shiftOp 0x0041 shrRes)
def execSar (s : State) : Out := .next (s.shiftOp 0x0042 sarRes)
def execRor (s : State) : Out := .next (s.binOp { code := 0x0043 } fun sw a n => rorFlags sw a n.toNat)

/-! ### SW, IW, LA and the logic stack (R93, R95, R107, R137) -/

def execGetsw (s : State) : Out := .next (s.pushOp { code := 0x0050 } fun n s => (s.ctx n).sw)
/-- SETSW, the SW-write instruction (R95). -/
def execSetsw (s : State) : Out :=
  .next (s.runNext { code := 0x0051 } fun n s => match s.popN n 1 with
    | .error t => .error t
    | .ok (xs, s) =>
      let x := xs.getD 0 0
      if swWriteDenied (s.k4 n) (s.ctx n).sw x then .error ⟨13, 1, 15, false, none, none⟩
      else .ok (s.updCtx n fun c => { c with sw := swWritten (s.k4 n) c.sw x }))
def execGetiw (s : State) : Out :=
  .next (s.pushOp { code := 0x0052 } fun n s => BitVec.ofNat 32 ((s.ctx n).iwn * 256))
/-- SETIW checks alignment, then range (R107). -/
def execSetiw (s : State) : Out :=
  .next (s.runNext { code := 0x0053 } fun n s => match s.popN n 1 with
    | .error t => .error t
    | .ok (xs, s) =>
      let x := (xs.getD 0 0).toNat
      if x % 256 ≠ 0 then .error ⟨4, 0, 15, false, none, none⟩
      else if 0x110000 ≤ x then .error ⟨2, 2, 15, false, none, none⟩
      else .ok (s.updCtx n fun c => { c with iwn := x / 256 }))
def execLatos (s : State) : Out := .next (s.pushOp { code := 0x0058 } fun n s => truth (s.ctx n).la)
def execTosla (s : State) : Out :=
  .next (s.runNext { code := 0x0059 } fun n s => match s.popN n 1 with
    | .error t => .error t
    | .ok (xs, s) => .ok (s.updCtx n fun c => { c with la := decide (xs.getD 0 0 ≠ 0) }))
/-- LPUSH pushes LA, which stays. -/
def execLpush (s : State) : Out := .next (s.runCtx { code := 0x005A } Ctx.lpush)
def execLpop (s : State) : Out := .next (s.runCtx { code := 0x005B } Ctx.lpop)
/-- t := LA; pop; LA := LA op t. -/
def Ctx.lcombine (op : Bool → Bool → Bool) (c : Ctx) : Except Trap Ctx :=
  match c.lpop with
  | .error t => .error t
  | .ok c' => .ok { c' with la := op c'.la c.la }
def execLandp (s : State) : Out := .next (s.runCtx { code := 0x005C } (Ctx.lcombine and))
def execLorp (s : State) : Out := .next (s.runCtx { code := 0x005D } (Ctx.lcombine or))
def execLxorp (s : State) : Out := .next (s.runCtx { code := 0x005E } (Ctx.lcombine xor))
def execLnot (s : State) : Out := .next (s.runCtx { code := 0x005F } fun c => .ok { c with la := !c.la })
def execLset (s : State) : Out := .next (s.runCtx { code := 0x0060 } fun c => .ok { c with la := true })
def execLclr (s : State) : Out := .next (s.runCtx { code := 0x0061 } fun c => .ok { c with la := false })

end Sys2Proof.Machine
end

