-- ==== Sys2Proof/Machine/IsaBit.lean ====
section
/-! DEFINITION. The bit instructions (R134, R135) and the vector image instructions (R149). They reach the image
without a segment; a core access to the image bank stalls while the engine holds it (R19). Older buffered stores reach
their banks first. -/

namespace Sys2Proof.Machine

/-- The image bank is within reach: it stalls while the engine holds it, and an answer DOMAIN_OFF is a segment-access
fault (R17, R19). -/
def State.imageReady (s : State) (w : Nat) : Except Trap State :=
  if s.imageHeld then .error stallTrap
  else if !s.serves 7 then .error ⟨3, 5, 15, true, none, none⟩
  else
    let s := (s.drainAll).touch 7
    match s.eccRead (imgAddr w) 0 with
    | (false, _) => .error ⟨3, 7, 15, false, some (imgAddr w), none⟩
    | (true, s) => .ok s

/-- What a bit operation 0x0 to 0x8 makes of LA and its point (R134). -/
def bitReads (op : Nat) (la p : Bool) : Bool :=
  match op with
  | 0x0 => p
  | 0x1 => !p
  | 0x2 => la && p
  | 0x3 => la && !p
  | 0x4 => la || p
  | 0x5 => la || !p
  | 0x6 => xor la p
  | 0x7 => p
  | _ => !p

/-- What a bit operation 0x9 to 0xF makes of LA and its point: the new LA and the value to write, if any (R134). -/
def bitWrites (op : Nat) (la p : Bool) : Bool × Option Bool :=
  match op with
  | 0x9 => (la, some la)
  | 0xA => (la, some (!la))
  | 0xB => (la, if la then some true else none)
  | 0xC => (la, if la then some false else none)
  | 0xD => (la && !p, some la)
  | 0xE => (p && !la, some la)
  | _ => (la, if la then some (!p) else none)

/-- A bit operation that reads its point; 0x7 and 0x8 push LA first. -/
def State.bitReadAt (s : State) (op : Nat) (off : BitVec 8) (n : Nat) : Except Trap State :=
  let p := (s.ctx n).point off
  match (if 7 ≤ op then (s.ctx n).lpush else .ok (s.ctx n)) with
  | .error t => .error t
  | .ok c => match s.imageReady (p / 64) with
    | .error t => .error t
    | .ok s =>
      let s := s.note (imgAddr (p / 64)) 8 false (BitVec.ofNat 32 (s.pointVal p).toNat)
      .ok (s.setCtx n { c with la := bitReads op c.la (s.pointVal p) })

/-- A bit operation that writes its point. A point of the I or S area is refused whether or not LA would lead to a write
(R135). -/
def State.bitWriteAt (s : State) (op : Nat) (off : BitVec 8) (n : Nat) : Except Trap State :=
  let c := s.ctx n
  let p := c.point off
  match writableWord (p / 64) with
  | .error t => .error t
  | .ok _ => match s.imageReady (p / 64) with
    | .error t => .error t
    | .ok s =>
      let (la, w) := bitWrites op c.la (s.pointVal p)
      let s := match w with
        | some v => (s.note (imgAddr (p / 64)) 8 true (BitVec.ofNat 32 v.toNat)).setPoint p v
        | none => s.note (imgAddr (p / 64)) 8 false (BitVec.ofNat 32 (s.pointVal p).toNat)
      .ok (s.updCtx n fun c => { c with la := la })

/-- Bit operation op on the point at offset off of the window; 0xD to 0xF are illegal in a KX4 context (R159). -/
def State.bitAt (s : State) (op : Nat) (off : BitVec 8) (n : Nat) : Except Trap State :=
  if op ≤ 8 then s.bitReadAt op off n else s.bitWriteAt op off n
def State.bitOp (s : State) (op : Nat) (off : BitVec 8) : State :=
  s.runNext { code := 0x1000 + 0x100 * op + off.toNat, k4ill := decide (0xD ≤ op) } fun n s => s.bitAt op off n

def execLd (off : BitVec 8) (s : State) : Out := .next (s.bitOp 0x0 off)
def execLdn (off : BitVec 8) (s : State) : Out := .next (s.bitOp 0x1 off)
def execBitAnd (off : BitVec 8) (s : State) : Out := .next (s.bitOp 0x2 off)
def execBitAndn (off : BitVec 8) (s : State) : Out := .next (s.bitOp 0x3 off)
def execBitOr (off : BitVec 8) (s : State) : Out := .next (s.bitOp 0x4 off)
def execBitOrn (off : BitVec 8) (s : State) : Out := .next (s.bitOp 0x5 off)
def execBitXor (off : BitVec 8) (s : State) : Out := .next (s.bitOp 0x6 off)
def execPsh (off : BitVec 8) (s : State) : Out := .next (s.bitOp 0x7 off)
def execPshn (off : BitVec 8) (s : State) : Out := .next (s.bitOp 0x8 off)
def execSt (off : BitVec 8) (s : State) : Out := .next (s.bitOp 0x9 off)
def execStn (off : BitVec 8) (s : State) : Out := .next (s.bitOp 0xA off)
def execSet (off : BitVec 8) (s : State) : Out := .next (s.bitOp 0xB off)
def execRst (off : BitVec 8) (s : State) : Out := .next (s.bitOp 0xC off)
def execEdgr (off : BitVec 8) (s : State) : Out := .next (s.bitOp 0xD off)
def execEdgf (off : BitVec 8) (s : State) : Out := .next (s.bitOp 0xE off)
def execTgl (off : BitVec 8) (s : State) : Out := .next (s.bitOp 0xF off)

/-! ### Vector image instructions (R149) -/

/-- A code of the range 0x0500 to 0x0505. -/
def vecInsn (code : Nat) : Insn := { code := code, k4ill := true }

/-- The low and high half of an image word. -/
def lo32 (x : DWord) : Word := x.setWidth 32
def hi32 (x : DWord) : Word := x.extractLsb' 32 32

/-- Pop pa and read its image word. -/
def State.vecRead (s : State) (code k : Nat) (f : DWord → List Word → List Word) : State :=
  s.runNext (vecInsn code) fun n s => match s.popN n k with
    | .error t => .error t
    | .ok (xs, s) => match vectorWord (xs.getD 0 0) with
      | .error t => .error t
      | .ok w => match s.imageReady w with
        | .error t => .error t
        | .ok s => (s.note (imgAddr w) 8 false (lo32 (s.img w))).pushAll n (f (s.img w) xs)

/-- Pop lo, hi and pa, and write the image word. -/
def State.vecWrite (s : State) (code : Nat) (f : DWord → DWord → DWord) : State :=
  s.runNext (vecInsn code) fun n s => match s.popN n 3 with
    | .error t => .error t
    | .ok (xs, s) => match vectorWord (xs.getD 0 0) with
      | .error t => .error t
      | .ok w => match writableWord w with
        | .error t => .error t
        | .ok _ => match s.imageReady w with
          | .error t => .error t
          | .ok s =>
            let v := f (s.img w) ((xs.getD 1 0) ++ (xs.getD 2 0))
            .ok ((s.note (imgAddr w) 8 true (lo32 v)).imgWrite w v 0)

def execVld (s : State) : Out := .next (s.vecRead 0x0500 1 fun x _ => [lo32 x, hi32 x])
def execVst (s : State) : Out := .next (s.vecWrite 0x0501 fun _ v => v)
def execVset (s : State) : Out := .next (s.vecWrite 0x0502 fun x v => x ||| v)
def execVclr (s : State) : Out := .next (s.vecWrite 0x0503 fun x v => x &&& ~~~v)
def execVtst (s : State) : Out :=
  .next (s.vecRead 0x0504 3 fun x xs => [truth (decide (x &&& ((xs.getD 1 0) ++ (xs.getD 2 0)) ≠ 0))])
def execVcnt (s : State) : Out := .next (s.vecRead 0x0505 1 fun x _ => [BitVec.ofNat 32 (popCount x)])

end Sys2Proof.Machine
end

