-- ==== Sys2Proof/Machine/IsaMem.lean ====
section
/-! DEFINITION. Loads, stores and XCHW (R139 to R141, R159), and the pipeline's memory happenings: held loads, line
fills, store drains, corrected write-backs and the patrol (R166 to R170, R258, R259). -/

namespace Sys2Proof.Machine

/-- A loaded value of n bytes extended to a word (R110). -/
def extend (size : Nat) (signed : Bool) (v : Nat) : Word :=
  if signed then sext (8 * size) v else BitVec.ofNat 32 v

/-- A load-class instruction of context n retires with its value: the slot of its offset keeps the old content for the
next instruction and takes the value after it; a KX4 context sees it at once (R140, R159). The top entry is the
result slot. -/
def State.finishLoad (s : State) (n : Nat) (old v : Word) : State :=
  s.updCtx n fun c =>
    let c := { c with oc := (if s.k4 n then v else old) :: c.oc }
    let c := { c with load := if s.k4 n then none else some (c.depth - 1, v) }
    c.advance

/-- Perform a load whose data is at hand, in context n: its offset is popped and its value is on its way. -/
def State.loadNow (s : State) (n k a size : Nat) (signed : Bool) : Except Trap State :=
  match s.anyLoad k a size with
  | .error t => .error t
  | .ok (v, s) =>
    let old := (s.ctx n).top 0
    let s := s.note a size false (BitVec.ofNat 32 v)
    .ok ((s.updCtx n fun c => c.dropTop 1).finishLoad n old (extend size signed v))

/-- What a load does at its launch: it completes, or it holds (R167, R168). -/
inductive Launch where
  | done (s : State)
  | hold (s : State) (k : HoldKind) (a : Nat)

/-- Launch a load of context n (R104, R167, R168). DESIGN CHOICE: a load served by forwarding does not look up the data cache; the spec
gives only its timing. -/
def State.launch (s : State) (n k size : Nat) (signed : Bool) : Except Trap Launch :=
  match s.need n 1 with
  | .error t => .error t
  | .ok s =>
    let c := s.ctx n
    match s.check c k .load (c.top 0).toNat size size with
    | .error t => .error t
    | .ok a =>
      if regionOf a = .ib && s.imageHeld then .error stallTrap
      else if isNS (c.seg k) a then .ok (.hold s .ns a)
      else if !s.cacheable a then .ok (.hold s .uncached a)
      else match s.sbHit a size with
        | .partialOverlap => .ok (.hold (s.count Reg.PIP_PARTIAL) .overlap a)
        | .forward v =>
          let old := c.top 0
          let s := s.note a size false v
          .ok (.done (((s.count Reg.PIP_FWD).updCtx n fun c => c.dropTop 1).finishLoad n old
            (extend size signed (v.toNat % 2 ^ (8 * size)))))
        | .none => match s.loadNow n k a size signed with
          | .error t => .error t
          | .ok s => .ok (.done s)

/-- The line fill of a load that met an error it cannot get over goes on, and its line is not allocated (R170, R258). -/
def State.failedFill (s : State) (t : Trap) : State :=
  match t.ecc with
  | some a => if s.cacheable a ∧ !s.dHit a then
      let s := s.dLookup a true
      { s with core := { s.core with fills := s.core.fills.map fun f =>
          if f.data ∧ f.line = a / 32 then { f with seen := some (a / 8) } else f } }
    else s
  | none => s

/-- A load instruction: op and selector give its code (R139). -/
def State.loadOp (s : State) (op : Nat) (sel : BitVec 3) (size : Nat) (signed : Bool) : State :=
  match s.issue { code := 0x0200 + 8 * op + sel.toNat } with
  | .idle => s
  | .fault n s' t => s.faultFrom s' n t
  | .abandon s' => s'
  | .go n s' =>
    match (s'.updCtx n fun c => c.begin false).launch n sel.toNat size signed with
    | .error t => s.faultFrom (s'.failedFill t) n t
    | .ok (.done s'') => s.judgeRetire s' n s'' (s'.ctx n).lkc
    | .ok (.hold s'' k a) => s.unlessDrained
      { s''.updCtx n fun c => { c with prog := (s'.ctx n).prog } with
        core := { s''.core with held := some ⟨k, n, a, size, signed, sel.toNat, false⟩ } }

def execLdw (sel : BitVec 3) (s : State) : Out := .next (s.loadOp 0 sel 4 false)
def execLdh (sel : BitVec 3) (s : State) : Out := .next (s.loadOp 1 sel 2 true)
def execLdhu (sel : BitVec 3) (s : State) : Out := .next (s.loadOp 2 sel 2 false)
def execLdb (sel : BitVec 3) (s : State) : Out := .next (s.loadOp 3 sel 1 true)
def execLdbu (sel : BitVec 3) (s : State) : Out := .next (s.loadOp 4 sel 1 false)

/-- No load is held. -/
def State.unheld (s : State) : State := { s with core := { s.core with held := none } }

/-- A held load of s0 has its data at hand, its stores drained in s: the load retires, and only now another instruction's progress
is dropped (R150); or it takes the fault its access met. -/
def State.heldReturn (s0 s : State) (h : HeldLoad) : State :=
  let s := s.unheld
  State.stoppedCore <| match s.loadNow h.ctx h.seg h.pa h.size h.signed with
  | .error t => s0.faultFrom (s.failedFill t) h.ctx t
  | .ok s' =>
    let s' := s'.updCtx h.ctx fun c => { c with prog := if fld c.prog 31 30 = 1 then 0 else c.prog }
    s0.judgeRetire (s.updCtx h.ctx fun c =>
      { c with load := c.landing.orElse fun _ => c.load, landing := none }) h.ctx s' (s.ctx h.ctx).lkc

/-- The stores that overlap a held load have drained: it launches again (R167). -/
def execPartialOverlapRelaunch (s : State) : Out :=
  .next (match s.core.held with
    | some h => if h.kind = .overlap then
        s.heldReturn (s.unheld.drainN (drainCount (fun e => overlap h.pa h.size e.pa e.size) s.core.sb)) h
      else s
    | none => s)

/-- The data of a held uncached or NS load returns: an NS load has waited for an empty buffer, an uncached load for
the older stores to its bank (R168). -/
def execUncachedLoadReturn (s : State) : Out :=
  .next (match s.core.held with
    | some h => if regionOf h.pa = .ib && s.imageHeld then s else match h.kind with
      | .overlap => s
      | .ns => s.heldReturn s.unheld.drainAll h
      | .uncached => s.heldReturn (s.unheld.drainN (drainCount (fun e => regionOf e.pa == regionOf h.pa) s.core.sb)) h
    | none => s.staleReply 0)

/-- A store instruction ( x off -- ): checked by R104, it enters the store buffer as it retires. -/
def State.storeOp (s : State) (op : Nat) (sel : BitVec 3) (size : Nat) : State :=
  s.runNext { code := 0x0200 + 8 * op + sel.toNat } fun n s => match s.popN n 2 with
    | .error t => .error t
    | .ok (xs, s) => match s.check (s.ctx n) sel.toNat .store (xs.getD 0 0).toNat size size with
      | .error t => .error t
      | .ok a =>
        if regionOf a = .ib && s.imageHeld then .error stallTrap
        else
          let v : Word := BitVec.ofNat 32 ((xs.getD 1 0).toNat % 2 ^ (8 * size))
          .ok ((s.note a size true v).pushStore ⟨a, size, v, some n⟩)

def execStw (sel : BitVec 3) (s : State) : Out := .next (s.storeOp 5 sel 4)
def execSth (sel : BitVec 3) (s : State) : Out := .next (s.storeOp 6 sel 2)
def execStb (sel : BitVec 3) (s : State) : Out := .next (s.storeOp 7 sel 1)

/-- Read a word through selector k and write x in its place as one locked access, once the buffer is empty: both R and W
on the segment (R141, R168). -/
def State.exchange (s : State) (n k : Nat) (o x : Word) : Except Trap (Word × State) :=
  match s.check (s.ctx n) k .both o.toNat 4 4 with
  | .error t => .error t
  | .ok a =>
    if regionOf a = .ib && s.imageHeld then .error stallTrap
    else match ((s.drainAll).storeLook a).busLoad k a 4 with
      | .error t => .error t
      | .ok (v, s) =>
        let s := (s.note a 4 false (BitVec.ofNat 32 v)).note a 4 true x
        .ok (BitVec.ofNat 32 v, s.drainEntry ⟨a, 4, x, some n⟩)

/-- XCHW ( x off -- old ): its result is a load-class result whose old content is x (R140). -/
def execXchw (sel : BitVec 3) (s : State) : Out :=
  .next (s.runFlow { code := 0x0240 + sel.toNat, k4ill := true } fun n s => match s.popN n 2 with
    | .error t => .error t
    | .ok (xs, s) => match s.exchange n sel.toNat (xs.getD 0 0) (xs.getD 1 0) with
      | .error t => .error t
      | .ok (v, s) => .ok (s.finishLoad n (xs.getD 1 0) v))

/-! ### Fills, drains, write-backs, patrol -/

/-- Take the first fill that the port serves: data fills come before instruction fills (R162). -/
def nextFill (fs : List Fill) : Option Fill := (fs.find? (·.data)).orElse fun _ => fs.head?

/-- The fill's reads of its four 64-bit words (R258): a word that its access has checked already brings nothing more; an error that
cannot be corrected raises machine check condition 1, and the answer says that the line is not allocated. -/
def State.fillRead (s : State) (f : Fill) : Bool × State :=
  (List.range 4).foldl (fun (r : Bool × State) i =>
    let a := 32 * f.line + 8 * i
    if f.seen = some (a / 8) then (r.1 && decide (r.2.eccAt a ≠ .double), r.2) else
    let q := (r.2.touch (domainOf a)).eccRead a 0
    if q.1 then (r.1, q.2) else (false, q.2.mcheck 1 f.issuer a)) (true, s)

/-- The last beat of a line fill arrives and the line is allocated, the least recently used line of its set leaving
(R163, R165, R170); a line with an uncorrectable word is not allocated (R258). PIP_WPFILL counts the fill of a load that did not
retire. -/
def execLineFillComplete (s : State) : Out :=
  .next (match nextFill s.core.fills with
    | none => s
    | some f =>
      let s := { s with core := { s.core with fills := s.core.fills.filter (· != f) } }
      let s := if f.counted then s else s.count (if f.data then Reg.PIP_DCMISS else Reg.PIP_ICMISS)
      let s := if f.wp then s.count Reg.PIP_WPFILL else s
      if !s.serves (domainOf (32 * f.line)) || s.mappedOut (32 * f.line) then s else
      let r := s.fillRead f
      let s := r.2
      if !r.1 then s
      else if f.data then { s with core := ({ s.core with dcache := cacheUse 128 s.core.dcache f.line }).heldMarks }
      else { s with core := ({ s.core with icache := cacheUse 256 s.core.icache f.line }).heldMarks })

/-- The oldest store-buffer entry is written to its bank (R166). -/
def execStoreDrain (s : State) : Out :=
  .next (match s.core.sb with
    | e :: _ => if regionOf e.pa = .ib && s.imageHeld then s else (s.drainOne).deliverAborted
    | [] => s)

/-- With CWB set, the first waiting corrected word of a bank is written back (R258): its latent error is gone. -/
def execCorrectedWriteback (bank : Nat) (s : State) : Out :=
  .next (match s.banks.writeback.find? fun w => bankCode (8 * w) == bank && decide (regionOf (8 * w) ≠ .reserved) with
    | none => s
    | some w =>
      let s := { s with banks := { s.banks with writeback := s.banks.writeback.filter (· != w) } }
      if s.eccAt (8 * w) = .single then s.setEcc (8 * w) .none else s)

/-- The first and last address of a bank (R18), in the numbers of MEM_ESYN.BANK. -/
def bankRange (b : Nat) : Nat × Nat :=
  match b with
  | 0 => (0x000000, 0x1FFFFF)
  | 1 => (0x200000, 0x3FFFFF)
  | 2 => (0x400000, 0x5FFFFF)
  | 3 => (0x600000, 0x67FFFF)
  | 4 => (0x680000, 0x6BFFFF)
  | 5 => (0x6C0000, 0x6FFFFF)
  | 6 => (0x700000, 0x73FFFF)
  | _ => (0x750000, 0x753FFF)

/-- The patrol reads the next word of one bank in RUN and moves on, past a word of a mapped-out half without reading it (R264); in any
other bank it pauses (R259). A domain that is asked to doze is in RUN until it does (R50). -/
def State.patrolBank (s : State) (b : Nat) : State :=
  let (lo, hi) := bankRange b
  if (s.dom (domainOf lo)).st ≠ .run ∧ (s.dom (domainOf lo)).st ≠ .dozing then s
  else
    let p := Map.get (fun _ => 0) s.banks.patrol b
    let a := lo + 8 * p
    let s := if s.mappedOut a then s else (s.eccRead a 6).2
    let p' := if hi < a + 8 then 0 else p + 1
    { s with banks := { s.banks with patrol := Map.set (fun _ => 0) s.banks.patrol b p' } }

/-- Every 1024 fc the patrol reads the next word of each bank, while MEM_CTRL.PATROL is 1 (R259). -/
def execPatrolScrub (s : State) : Out :=
  .next (if s.f Reg.MEM_CTRL 0 0 = 1 ∧ s.serves 3 then (List.range 8).foldl State.patrolBank s else s)

end Sys2Proof.Machine
end

