-- ==== Sys2Proof/Machine/IsaFlow.lean ====
section
/-! DEFINITION. Transfers and delay slots (R128 to R133), locks and signals (R96, R144, R147), the ends of an activation
(R145), NETG (R146, R278, R279), BRK and RETI (R143). -/

namespace Sys2Proof.Machine

/-- p + 2 + 2 × disp, in SEG0 offsets. -/
def transferTarget {m : Nat} (pc : Word) (disp : BitVec m) : Word := pc + 2 + 2 * disp.signExtend 32

/-- The transfer of context n is taken: its slot executes next, then the target; `w` is where a misprediction has had instructions
fetched from behind the slot. -/
def Ctx.takeTransfer (c : Ctx) (t : Word) (w : Option Word := none) : Ctx :=
  { c with slot := .taken t, pc := c.pc + 2, wrong := w }

/-- The slot of an annulled branch counts as one locked instruction (R144). -/
def Ctx.annulSlot (c : Ctx) (pc : Word) : Ctx :=
  { (if c.lkc = 0 then c else c.setLkc (c.lkc - 1)) with pc := pc, slot := .none }

/-- The slot of an annulled branch at p of context n, with the wrong path behind it (R176): the slot is fetched; a load in it launches
early where the branch was predicted taken, prediction being on and the condition not AL. A loaded value of the instruction
before the branch has landed by then. -/
def State.annulled (s : State) (n : Nat) (p : Word) (suppressed : Bool) (w : Option Word) : State :=
  let r := s.peek n (p + 2)
  if !r.1 then r.2 else
  let c := r.2.ctx n
  let s := (r.2.updCtx n Ctx.landOld)
  let s := if suppressed then s else s.earlyLaunch n (p + 2) 0
  let s := match w with
    | some w => s.wrongPath n w 0
    | none => s
  s.setCtx n c

/-- A conditional branch (R129); a KX4 context has a 10-bit displacement and no annul bit (R159). -/
def execConditionalBranch (cond : BitVec 4) (annul : Bool) (disp : BitVec 9) (s : State) : Out :=
  .next (s.runFlow { code := 0x4000 + 0x400 * cond.toNat + 0x200 * annul.toNat + disp.toNat, noSlot := true }
    fun n s =>
      let c := s.ctx n
      let p := c.pc
      let taken := condHolds cond.toNat c.sw c.la
      let k4 := s.k4 n
      let target := if k4 then transferTarget p ((BitVec.ofBool annul) ++ disp) else transferTarget p disp
      let w := s.wrongOfBranch n p target taken
      let suppressed := s.predOff n || !s.predictsTaken p || decide (cond = 15)
      let skips := annul && !k4 && (!taken || decide (cond = 15))
      let s := if skips then s.annulled n p suppressed w else s
      let s := s.predictBranch n p taken
      .ok (s.updCtx n fun c =>
        if skips then c.annulSlot (if taken then target else p + 4)
        else if taken then c.takeTransfer target w
        else { c with slot := .notTaken, pc := p + 2, wrong := w }))

/-- JMP (R130). -/
def execJmp (disp : BitVec 12) (s : State) : Out :=
  .next (s.runFlow { code := 0x2000 + disp.toNat, noSlot := true } fun n s =>
    .ok ((s.predictDirect n).updCtx n fun c => c.takeTransfer (transferTarget c.pc disp) (s.wrongOfDirect n c.pc)))

/-- CALL pushes the offset of the instruction after its slot (R92, R130). -/
def execCall (disp : BitVec 12) (s : State) : Out :=
  .next (s.runFlow { code := 0x3000 + disp.toNat, noSlot := true } fun n s =>
    match s.rpush n ((s.ctx n).pc + 4) with
    | .error t => .error t
    | .ok s => .ok ((s.predictDirect n).updCtx n fun c =>
        c.takeTransfer (transferTarget c.pc disp) (s.wrongOfDirect n c.pc)))

/-- RET: bit [0] of the popped offset is cleared (R130). -/
def execRet (s : State) : Out :=
  .next (s.runFlow { code := 0x0300, noSlot := true } fun n s =>
    match s.rpop n with
    | .error t => .error t
    | .ok (x, s) => .ok ((s.predictDirect n).updCtx n fun c => c.takeTransfer (x &&& 0xFFFFFFFE) (s.wrongOfDirect n c.pc)))

/-- JMPI: an odd offset is misaligned, at the transfer itself (R130). -/
def execJmpi (s : State) : Out :=
  .next (s.runFlow { code := 0x0302, noSlot := true } fun n s => match s.popN n 1 with
    | .error t => .error t
    | .ok (xs, s) =>
      let off := xs.getD 0 0
      if bit off 0 then .error ⟨4, 0, 15, false, none, none⟩
      else .ok ((s.predictIndirect n (s.ctx n).pc off).updCtx n fun c =>
        c.takeTransfer off (s.wrongOfIndirect n c.pc off)))

/-- CALLI. -/
def execCalli (s : State) : Out :=
  .next (s.runFlow { code := 0x0303, noSlot := true } fun n s => match s.popN n 1 with
    | .error t => .error t
    | .ok (xs, s) =>
      let off := xs.getD 0 0
      if bit off 0 then .error ⟨4, 0, 15, false, none, none⟩
      else match s.rpush n ((s.ctx n).pc + 4) with
        | .error t => .error t
        | .ok s => .ok ((s.predictIndirect n (s.ctx n).pc off).updCtx n fun c =>
          c.takeTransfer off (s.wrongOfIndirect n c.pc off)))

/-- A RETI of the context that DBG_VSTEP arms clears ARM; vector 15 follows the instruction it returns to (R441). -/
def State.armedReti (s : State) (n : Nat) : State :=
  if bit (s.reg Reg.DBG_VSTEP) 6 && decide (s.f Reg.DBG_VSTEP 5 0 = n) then
    (s.setF Reg.DBG_VSTEP 6 6 0).updCtx n fun c => { c with vstep := 2 }
  else s

/-- RETI (R143): the shared return from a fault; Lantern's own returns from a frame of the Lantern stack (R222). -/
def execReti (s : State) : Out :=
  .next (if s.lanternBusy then s.lanternReturn
    else s.runFlow { code := 0x0301, noSlot := true, noLock := true } fun n s =>
      match s.returnFromFault n with
      | .ok s => .ok (s.armedReti n)
      | .error t => .error t)

/-- LOCK k + 1 sets LKC to k as it retires (R96). -/
def execLock (k : BitVec 3) (s : State) : Out :=
  .next (s.runNext { code := 0x0308 + k.toNat, noSlot := true, noLock := true, k4ill := true } fun n s =>
    .ok (s.updCtx n fun c => c.setLkc k.toNat))

/-- SIGNAL k raises source 120 + k as it retires (R147). -/
def execSignal (k : BitVec 3) (s : State) : Out :=
  .next (s.runNext { code := 0x0310 + k.toNat, k4ill := true } fun _ s => .ok (s.fire (120 + k.toNat)))

/-- END_SCAN ends context 0's activation (R145, R190). -/
def execEndScan (s : State) : Out :=
  .next (s.runFlow { code := 0x0318, noSlot := true, noLock := true, only0 := true } fun n s =>
    let s := (s.endActivation n).updCtx n fun c => { c with st := .waiting }
    .ok (s.offCore n))

/-- ENDT ends an event context's activation; with a release pending the context is ready again (R145, R190). -/
def execEndt (s : State) : Out :=
  .next (s.runFlow { code := 0x0319, noSlot := true, noLock := true, not0 := true } fun n s =>
    let s := s.endActivation n
    let s := if (s.ctx n).pend then (s.updCtx n fun c => { c with pend := false }).makeReady n
      else s.updCtx n fun c => { c with st := .waiting }
    .ok (s.offCore n))

/-- BRK raises the breakpoint fault with PC at BRK (R142, R211). -/
def execBrk (s : State) : Out :=
  .next (s.runFlow { code := 0x031B } fun _ _ => .error ⟨14, 0, 15, false, none, none⟩)

/-! ### NETG (R278, R279) -/

/-- NETG reads the 64-bit word at an address of its record for context n, as a load through SEG1 (R167, R168, R279). A comparator
compares its low word (R439). -/
def State.netRead (s : State) (n a : Nat) : Except Trap (Nat × State) :=
  match s.fetchAt n 1 a 8 with
  | .error t => .error t
  | .ok (v, s) => .ok (v, s.note a 8 false (BitVec.ofNat 32 v))

/-- A guard entry sends the network to evaluation: it names no stamped word, its stamp cannot be read, or its apparent
age is at most d (R279). -/
def State.guardFires (s : State) (d g : Nat) : Bool × State :=
  let w := g % 0x8000
  if 16384 ≤ w then (true, s) else
  match s.eccRead (stampAddr w) 0 with
  | (false, s) => (true, s)
  | (true, s) => (decide ((s.scn.cyc % 256 + 256 - s.mread (stampAddr w) 1) % 256 ≤ d), s)

/-- The guard entries in turn, up to the first that sends the network to evaluation. -/
def State.anyGuard (s : State) (d : Nat) : List Nat → Bool × State
  | [] => (false, s)
  | g :: t => match s.guardFires d g with
    | (true, s) => (true, s)
    | (false, s) => s.anyGuard d t

/-- Deterministic mode for context n: SW.DET, or the global switch in force (R97, R281). -/
def State.deterministic (s : State) (n : Nat) : Bool := bit (s.ctx n).sw swDET || s.scn.gdet

/-- NETG stores CYC as the record's last evaluation, a whole 64-bit word, which takes new check bits (R256), and goes on behind itself
(R165, R279). -/
def State.netEvaluate (s : State) (n a : Nat) : State :=
  let s := ((s.setEcc (a + 8) .none).pushStore ⟨a + 8, 4, BitVec.ofNat 32 s.scn.cyc, some n⟩).pushStore
    ⟨a + 12, 4, BitVec.ofNat 32 (s.scn.cyc / 2 ^ 32 % 2 ^ 24), some n⟩
  ((s.count Reg.SCN_NETEV).note (a + 8) 8 true (BitVec.ofNat 32 s.scn.cyc)).updCtx n Ctx.advance

/-- NETG skips the network: PC is its end (R279). -/
def State.netSkip (s : State) (n fin : Nat) : State :=
  (s.count Reg.SCN_NETSKIP).updCtx n fun c => { c with pc := BitVec.ofNat 32 fin, slot := .none }

/-- The first k guard entries of a record, from the j-th 64-bit word of its list on. -/
def State.netGuards (s : State) (n a : Nat) : Nat → Nat → Except Trap (List Nat × State)
  | 0, _ => .ok ([], s)
  | words + 1, k => match s.netRead n a with
    | .error t => .error t
    | .ok (v, s) => match s.netGuards n (a + 8) words (k - 4) with
      | .error t => .error t
      | .ok (l, s) => .ok ((List.range (min k 4)).map (fun j => v / 2 ^ (16 * j) % 2 ^ 16) ++ l, s)

/-- NETG decides whether its network is evaluated (R279, step 5). It never skips a network with STATELESS 0, bit 22 of the header (R280). -/
def State.netFires (s : State) (n a hdr : Nat) (guards : List Nat) : Except Trap (Bool × State) :=
  if s.deterministic n then .ok (true, s) else
  match s.netRead n (a + 8) with
  | .error t => .error t
  | .ok (leval, s) =>
    let d := (s.scn.cyc + 2 ^ 56 - leval % 2 ^ 56) % 2 ^ 56
    if hdr / 2 ^ 22 % 2 = 0 ∨ 128 ≤ d then .ok (true, s) else .ok (s.anyGuard d guards)

/-- NETG ( rec -- ) (R146, R279). DESIGN CHOICE: in deterministic mode the guard entries, which it does not read, are not checked
either; R279 lists their check before the mode is looked at. -/
def execNetg (s : State) : Out :=
  .next (s.runFlow { code := 0x031A, noSlot := true, noLock := true, k4ill := true } fun n s =>
    match s.popN n 1 with
    | .error t => .error t
    | .ok (xs, s) =>
      let rec0 := (xs.getD 0 0).toNat
      match s.check (s.ctx n) 1 .both rec0 16 8 with
      | .error t => .error t
      | .ok a => match s.netRead n a with
        | .error t => .error t
        | .ok (hdr, s) =>
          let k := if s.deterministic n then 0 else hdr / 2 ^ 23 % 32
          if 16 < hdr / 2 ^ 23 % 32 ∨ hdr % 2 = 1 then .error ⟨1, 5, 15, false, none, none⟩ else
          match (if k = 0 then .ok a else s.check (s.ctx n) 1 .load (rec0 + 16) (2 * k) 2) with
          | .error t => .error t
          | .ok _ => match s.netGuards n (a + 16) ((k + 3) / 4) k with
            | .error t => .error t
            | .ok (guards, s) =>
              if s.imageHeld then .error stallTrap else
              match (s.drainN (drainCount (fun e => decide (regionOf e.pa = .ib)) s.core.sb)).netFires n a hdr guards with
              | .error t => .error t
              | .ok (true, s) => .ok (s.netEvaluate n a)
              | .ok (false, s) => .ok (s.netSkip n (hdr % 2 ^ 22)))

end Sys2Proof.Machine
end

