-- ==== Sys2Proof/Machine/IsaFp.lean ====
section
/-! DEFINITION. Floating point: the ownership transfer (R204 to R207, R479, R480) and the instructions of the FP stack
(R119 to R124, R148). -/

namespace Sys2Proof.Machine

/-! ### The ownership transfer (R205) -/

/-- FPSW with FDEPTH (R120). -/
def State.fpswWord (s : State) : Word := BitVec.ofNat 32 (s.core.fpsw.toNat + 0x100 * s.core.fp.length)

/-- FPSA of context n: EN and ADDR (R186). -/
def State.fpsa (s : State) (n : Nat) : Bool × Nat :=
  (bit (s.reg (cdReg n 4)) 31, fld (s.reg (cdReg n 4)) 22 0)

/-- A valid save-area address (R206). -/
def fpsaValid (a : Nat) : Bool :=
  decide (a % 64 = 0) && ((decide (0x400000 ≤ a) && decide (a < 0x600000))
    || (decide (0x600800 ≤ a) && decide (a < 0x680000)))

/-- The fault of a failed transfer access (R480): vector 3 without a selector, and machine check condition 4. -/
def fpTrap (a : Nat) (t : Trap) : Trap := { t with seg := 15, fpx := some a }

/-- Write words of a save area by the store buffer (R165), each answered before the next; the transfer stops at the word that fails
(R480). DEDUCED: a word in a mapped-out half, which no segment check meets, gives the REASON of R264. -/
def State.fpWrite (s : State) (n a : Nat) : List Word → Except (Trap × State) State
  | [] => .ok s
  | w :: ws => if s.mappedOut a then .error (⟨3, 3, 15, false, none, none⟩, s) else match s.busAccepts 15 a with
    | .error t => .error (fpTrap a t, s)
    | .ok _ => ((s.sbPut ⟨a, 4, w, some n⟩).drainAll).fpWrite n (a + 4) ws

/-- Read k words of a save area. -/
def State.fpRead (s : State) (a : Nat) : Nat → Except (Trap × State) (List Word × State)
  | 0 => .ok ([], s)
  | k + 1 => if s.mappedOut a then .error (⟨3, 3, 15, false, none, none⟩, s) else match s.anyLoad 15 a 4 with
    | .error t => .error (fpTrap a t, s)
    | .ok (v, s) => match s.fpRead (a + 4) k with
      | .error e => .error e
      | .ok (ws, s) => .ok (BitVec.ofNat 32 v :: ws, s)

/-- The transfer goes on behind its j-th safe point, unless a bad word of its routine is in the way (R248). -/
def State.fpStretch (s : State) (n j : Nat) : Except (Trap × State) State :=
  match s.stretchGood n hwFp j with
  | (true, s) => .ok s
  | (false, s) => .error (abandonTrap, s)

/-- The 16 words of the FP save area for the FP state at hand (R206). -/
def State.fpImage (s : State) : List Word :=
  s.fpswWord :: ((List.range 8).map fun i => s.core.fp.getD i 0) ++ List.replicate 7 0

/-- Save the owner's state, for context n, up to safe point 1 or 2: the owner is left with its whole image written, FPV set and FPOWN
none, or with the first half written. -/
def State.fpSave (s : State) (n o : Nat) (stop : Nat) : Except (Trap × State) State :=
  let a := (s.fpsa o).2
  match (if s.core.fpSaved = some o then .ok s else s.fpWrite o a (s.fpImage.take 8)) with
  | .error e => .error e
  | .ok s =>
    let s := { s with core := { s.core with fpSaved := some o } }
    if stop ≤ 1 then .ok s else
    match s.fpStretch n 1 with
    | .error e => .error e
    | .ok s => match s.fpWrite o (a + 32) (s.fpImage.drop 8) with
    | .error e => .error e
    | .ok s =>
      let s := s.updCtx o fun c => { c with fpv := true, sw := setBit c.sw swFPA false }
      .ok { s with core := { s.core with fpown := none, fpSaved := none, fpHalf := none, pin := false } }

/-- Words 0 to 7 are read, or the state is made empty where the context has none saved. -/
def State.fpFirst (s : State) (n a : Nat) : Except (Trap × State) (Nat × State) :=
  if (s.ctx n).fpv then
    match s.fpRead a 8 with
    | .error e => .error e
    | .ok (ws, s) =>
      let d := min 8 (fld (ws.headD 0) 11 8)
      .ok (d, { s with core := { s.core with
        fpsw := BitVec.ofNat 5 (ws.headD 0).toNat, fp := (ws.drop 1).take d, fpHalf := some (n, d) } })
  else .ok (0, { s with core := { s.core with fpsw := 0, fp := [], fpHalf := some (n, 0) } })

/-- Load context n's state up to safe point 3 or 4: FPOWN is n and its FPA 1 at the end (R205, R479). -/
def State.fpLoad (s : State) (n : Nat) (stop : Nat) : Except (Trap × State) State :=
  let a := (s.fpsa n).2
  let first : Except (Trap × State) (Nat × State) :=
    match s.core.fpHalf with
    | some (m, d) => if m = n then .ok (d, s) else s.fpFirst n a
    | none => s.fpFirst n a
  match first with
  | .error e => .error e
  | .ok (d, s) =>
    if stop ≤ 3 then .ok s else
    match s.fpStretch n 3 with
    | .error e => .error e
    | .ok s => match (if (s.ctx n).fpv then s.fpRead (a + 32) 8 else .ok ([], s)) with
    | .error e => .error e
    | .ok (ws, s) =>
      let s := { s with core := { s.core with
        fp := if d = 8 then s.core.fp ++ [ws.headD 0] else s.core.fp
        fpown := some n, fpHalf := none, fpSaved := none } }
      .ok (s.updCtx n fun c => { c with sw := setBit c.sw swFPA true })
/-- Context n, with FPA 0, gains the FP state (R205), up to safe point `stop` (4: to the end); a fault leaves what was
committed before it. -/
def State.fpGain (s : State) (n stop : Nat) : Except (Trap × State) State :=
  match s.fpStretch n 0 with
  | .error e => .error e
  | .ok s =>
  let (en, a) := s.fpsa n
  if !en || !fpsaValid a then .error (⟨10, 1, 15, false, none, none⟩, s)
  else if s.core.pin && decide (s.core.fpown ≠ some n) then .error (⟨10, 2, 15, false, none, none⟩, s)
  else
    let s := s.drainAll
    match s.core.fpown with
    | some o => match s.fpSave n o stop with
      | .error e => .error e
      | .ok s => if stop ≤ 2 then .ok s else match s.fpStretch n 2 with
        | .error e => .error e
        | .ok s => s.fpLoad n stop
    | none => if stop ≤ 2 then .ok s else s.fpLoad n stop

/-- What a transfer has committed, where it has not failed before. -/
def fpDone (s : State) : Except (Trap × State) State → State
  | .ok t => t
  | .error _ => s

/-- Of the transfer of context n, an access is answered ABORTED as PD6 is reset under it (R57, R480): the access's address, and the state
with what the transfer had written and committed before. Which of its words that was no command tells: a free value. -/
def State.fpAborted (s : State) (n : Nat) : Nat × State :=
  let k := Config.abortedWord s.free
  let was := s.dom 6
  let up := (s.tickFree.setDom 6 { was with st := .run }).drainAll
  let load (s : State) (k : Nat) : Nat × State :=
    let first := if s.core.fpHalf.map (·.1) = some n then 8 else 0
    let w := first + k % (16 - first)
    ((s.fpsa n).2 + 4 * w, if 8 ≤ w then fpDone s (s.fpLoad n 3) else s)
  let r : Nat × State := match up.core.fpown with
    | none => load up k
    | some o =>
      let first := if up.core.fpSaved = some o then 8 else 0
      let i := k % (16 - first + (if (up.ctx n).fpv then 16 else 0))
      if first + i < 16 then
        let w := first + i
        let t := if 8 ≤ w then fpDone up (up.fpSave n o 1) else up
        let from_ := if 8 ≤ w then 8 else first
        ((up.fpsa o).2 + 4 * w, fpDone t (t.fpWrite o ((up.fpsa o).2 + 4 * from_) ((up.fpImage.take w).drop from_)))
      else load (fpDone up (up.fpSave n o 2)) (first + i - 16)
  (r.1, r.2.setDom 6 was)

/-- The running context has FPA 1. -/
def State.fpaNow (s : State) : Bool :=
  match s.car.running with
  | none => false
  | some n => bit (s.ctx n).sw swFPA

/-- What issues an FP instruction: none in a KX4 context, and in a lock none that has to gain the FP state (R144). -/
def State.fpInsn (s : State) (code : Nat) : Insn := { code := code, k4ill := true, noLock := !s.fpaNow }

/-- The transfer runs as far as safe point `stop`, or to its end (R205), for the FP instruction at PC, whose fetch and checks its own
command makes. At a safe point the context is open to its pending vectors, as to a switch. -/
def execFpOwnershipTransfer (stop : Option Nat) (s : State) : Out :=
  .next (match s.car.running with
    | none => s
    | some n =>
      if !s.coreRuns || s.core.held.isSome || s.replayStalls || bit (s.ctx n).sw swFPA || s.k4 n || decide ((s.ctx n).lkc ≠ 0) then s
      else match s.fpGain n (stop.getD 4) with
        | .error (t, s1) => s.faultFrom s1 n t
        | .ok s1 => s.unlessDrained ((if stop.isSome then s1.settleLoad n else s1).takePending))

/-! ### FP instructions -/

/-- Execute an FP instruction: the FP state is gained first, and what the transfer committed stands (R124, R205). -/
def State.runFp (s : State) (code : Nat) (body : Nat → State → Except Trap State) : State :=
  match s.issue (s.fpInsn code) with
  | .idle => s
  | .fault n s' t => s.faultFrom s' n t
  | .abandon s' => s'
  | .go n s' =>
    match (if bit (s'.ctx n).sw swFPA then .ok s' else s'.fpGain n 4) with
    | .error (t, s1) => s.faultFrom s1 n t
    | .ok s1 =>
      let s1 := { s1 with core := { s1.core with fpSaved := none } }
      match body n (s1.updCtx n fun c => c.begin false) with
      | .error t => s.faultFrom s1 n t
      | .ok s2 => s.judgeRetire s1 n (s2.updCtx n Ctx.advance) (s1.ctx n).lkc

/-- The FP stack holds at least k entries (R122). -/
def State.fpNeed (s : State) (k : Nat) : Except Trap Unit :=
  if s.core.fp.length < k then .error ⟨7, 3, 15, false, none, none⟩ else .ok ()

/-- Entry i of the FP stack, F0 being 0. -/
def State.fpTop (s : State) (i : Nat) : Word := s.core.fp.getD i 0

/-- Replace the FP stack and add to the sticky flags of FPSW. -/
def State.setFp (s : State) (st : List Word) (fl : BitVec 5) : State :=
  { s with core := { s.core with fp := st, fpsw := s.core.fpsw ||| fl } }

/-- Push onto the FP stack (R122). -/
def State.fpPush (s : State) (v : Word) (fl : BitVec 5) : Except Trap State :=
  if 8 ≤ s.core.fp.length then .error ⟨6, 3, 15, false, none, none⟩ else .ok (s.setFp (v :: s.core.fp) fl)

/-- An operation on the top k entries that leaves a list of entries in their place. -/
def State.fpTops (s : State) (k : Nat) (f : Word → Word → List Word × BitVec 5) : Except Trap State :=
  match s.fpNeed k with
  | .error t => .error t
  | .ok _ =>
    let (r, fl) := f (s.fpTop 1) (s.fpTop 0)
    if 8 < r.length + (s.core.fp.length - k) then .error ⟨6, 3, 15, false, none, none⟩
    else .ok (s.setFp (r ++ s.core.fp.drop k) fl)

/-- FCMP sets the integer flags (R121). -/
def State.fpCompare (s : State) (n : Nat) : Except Trap State :=
  match s.fpNeed 2 with
  | .error t => .error t
  | .ok _ =>
    let (sw, fl) := fcmpFlags (s.ctx n).sw (s.fpTop 1) (s.fpTop 0)
    .ok ((s.setFp (s.core.fp.drop 2) fl).updCtx n fun c => { c with sw := sw })

/-- A value moves from the operand stack to the FP stack (R123). -/
def State.toFp (s : State) (n : Nat) (f : Word → Word × BitVec 5) : Except Trap State :=
  match s.popN n 1 with
  | .error t => .error t
  | .ok (xs, s) => let (v, fl) := f (xs.getD 0 0); s.fpPush v fl

/-- A value moves from the FP stack to the operand stack (R123). -/
def State.fromFp (s : State) (n : Nat) (f : Word → Word → Word × BitVec 5) : Except Trap State :=
  match s.fpNeed 1 with
  | .error t => .error t
  | .ok _ =>
    let (v, fl) := f (s.ctx n).sw (s.fpTop 0)
    (s.setFp (s.core.fp.drop 1) fl).push n v

/-- One result and its flags. -/
def one (r : Word × BitVec 5) : List Word × BitVec 5 := ([r.1], r.2)

/-- The FP instructions of R148 in the order of its table, from 1. FUNPIN by a context that does not own the FP state
changes nothing (R207). -/
def State.fpDo (s : State) (k n : Nat) : Except Trap State :=
  match k with
  | 1 => s.fpTops 2 fun a b => one (fadd a b)
  | 2 => s.fpTops 2 fun a b => one (fsub a b)
  | 3 => s.fpTops 2 fun a b => one (fmul a b)
  | 4 => s.fpTops 2 fun a b => one (fdiv a b)
  | 5 => s.fpTops 1 fun _ a => one (fsqrt a)
  | 6 => s.fpTops 1 fun _ a => one (fneg a)
  | 7 => s.fpTops 1 fun _ a => one (fabs a)
  | 8 => s.fpCompare n
  | 9 => s.fpTops 1 fun _ a => ([a, a], 0)
  | 10 => s.fpTops 1 fun _ _ => ([], 0)
  | 11 => s.fpTops 2 fun a b => ([a, b], 0)
  | 12 => s.fpTops 2 fun a b => ([a, b, a], 0)
  | 13 => s.toFp n fitof
  | 14 => s.fromFp n fun sw a => fftoi (fld sw 7 6) a
  | 15 => s.toFp n fun x => (x, 0)
  | 16 => s.fromFp n fun _ a => (a, 0)
  | 17 => s.push n s.fpswWord
  | 18 => match s.popN n 1 with
    | .error t => .error t
    | .ok (xs, s) => .ok { s with core := { s.core with fpsw := BitVec.ofNat 5 (xs.getD 0 0).toNat } }
  | 19 => .ok { s with core := { s.core with pin := true } }
  | 20 => .ok (if s.core.fpown = some n then { s with core := { s.core with pin := false } } else s)
  | _ => .ok s

/-- Execute the k-th of them, of `code`. -/
def State.fpInstr (s : State) (code k : Nat) : State := s.runFp code fun n s => s.fpDo k n

def execFadd (s : State) : Out := .next (s.fpInstr 0x0400 1)
def execFsub (s : State) : Out := .next (s.fpInstr 0x0401 2)
def execFmul (s : State) : Out := .next (s.fpInstr 0x0402 3)
def execFdiv (s : State) : Out := .next (s.fpInstr 0x0403 4)
def execFsqrt (s : State) : Out := .next (s.fpInstr 0x0404 5)
def execFneg (s : State) : Out := .next (s.fpInstr 0x0405 6)
def execFabs (s : State) : Out := .next (s.fpInstr 0x0406 7)
def execFcmp (s : State) : Out := .next (s.fpInstr 0x0407 8)
def execFdup (s : State) : Out := .next (s.fpInstr 0x0408 9)
def execFdrop (s : State) : Out := .next (s.fpInstr 0x0409 10)
def execFswap (s : State) : Out := .next (s.fpInstr 0x040A 11)
def execFover (s : State) : Out := .next (s.fpInstr 0x040B 12)
def execFitof (s : State) : Out := .next (s.fpInstr 0x0410 13)
def execFftoi (s : State) : Out := .next (s.fpInstr 0x0411 14)
def execFmovi (s : State) : Out := .next (s.fpInstr 0x0412 15)
def execFmovo (s : State) : Out := .next (s.fpInstr 0x0413 16)
def execFgetsw (s : State) : Out := .next (s.fpInstr 0x0418 17)
def execFsetsw (s : State) : Out := .next (s.fpInstr 0x0419 18)
def execFpin (s : State) : Out := .next (s.fpInstr 0x0420 19)

/-- FUNPIN runs no transfer (R207). -/
def execFunpin (s : State) : Out :=
  .next (s.runNext { code := 0x0421, k4ill := true } fun n s => s.fpDo 20 n)

end Sys2Proof.Machine
end

