-- ==== Sys2Proof/Machine/IsaLong.lean ====
section
/-! DEFINITION. The long resumable instructions (R150 to R152) and SAVEL and SAVEU (R153, R203). The operand `stop` of
such an instruction is the safe point at which something interrupts it, the first being 1; without it the instruction
runs to its end. -/

namespace Sys2Proof.Machine

/-- The progress word of a long instruction (R151). -/
def progWord (code step : Nat) : Word := BitVec.ofNat 32 (0x40000000 + step * 0x10000 + code)

/-- How a stretch of a long instruction ends. -/
inductive LongEnd where
  | done (result : Option Word)
  | safePoint
  | abandoned
  | fault (t : Trap)
  deriving DecidableEq, Repr

/-- What one step gives: a result that ends the instruction, or the operands after it. -/
structure LongStep where
  result : Option Word
  operands : List Word
  st : State

/-- Commit steps until the words run out, a result is found, a step faults, or `fuel` steps have been made. The head of
the operands is the count of words that remain. -/
def longLoop (step : List Word → State → Except Trap LongStep) (final : Option Word) :
    Nat → List Word → State → List Word × State × LongEnd
  | 0, xs, s => (xs, s, if xs.headD 0 = 0 then .done final else .safePoint)
  | fuel + 1, xs, s =>
    if xs.headD 0 = 0 then (xs, s, .done final)
    else match step xs s with
      | .error t => (xs, s, .fault t)
      | .ok ⟨some r, _, s⟩ => (xs, s, .done (some r))
      | .ok ⟨none, ys, s⟩ => longLoop step final fuel ys s

/-- The same in stretches of 8 words, for context n: between two of them stands a safe point, behind which the routine of entry word m
is abandoned at a bad word of its j-th stretch (R248). -/
def longStretches (step : List Word → State → Except Trap LongStep) (final : Option Word) (n m : Nat) :
    Nat → Nat → Nat → List Word → State → List Word × State × LongEnd
  | 0, _, _, xs, s => (xs, s, .safePoint)
  | k + 1, j, fuel, xs, s =>
    match longLoop step final (min 8 fuel) xs s with
    | (ys, s, .safePoint) =>
      if fuel ≤ 8 then (ys, s, .safePoint) else
      match s.stretchGood n m j with
      | (true, s) => longStretches step final n m k (j + 1) (fuel - 8) ys s
      | (false, s) => (ys, s, .abandoned)
    | r => r

/-- The words of a long instruction of entry word m: in one stretch where no store word is bad. -/
def State.longRun (s : State) (step : List Word → State → Except Trap LongStep) (final : Option Word) (n m fuel : Nat)
    (xs : List Word) : List Word × State × LongEnd :=
  if s.mcs.bad = [] then longLoop step final fuel xs s else longStretches step final n m (fuel / 8 + 1) 1 fuel xs s

/-- The operands and PROG of an interrupted long instruction (R150); PC stays at it, and a loaded value on its way lands (R140). -/
def State.longCommit (s : State) (n : Nat) (xs : List Word) (prog : Word) : State :=
  (s.updCtx n fun c => { c with oc := xs ++ c.oc, prog := prog }).settleLoad n

/-- Execute a long instruction of `code` with `k` operands: the checks before its first step, then its steps, 8 words
to a safe point. A fault before the first word is committed leaves the context as it was (R96); one on a later word
leaves the words before it committed (R152). -/
def State.runLong (s : State) (code k : Nat) (stop : Option Nat) (pre : List Word → Except Trap Unit)
    (step : Nat → List Word → State → Except Trap LongStep) (final : Option Word) : State :=
  match s.issue { code := code, noSlot := true, noLock := true, k4ill := true, long := true } with
  | .idle => s
  | .fault n s' t => s.faultFrom s' n t
  | .abandon s' => s'
  | .go n s' =>
    match (s'.updCtx n fun c => c.begin true).popN n k with
    | .error t => s.faultFrom s' n t
    | .ok (xs, s1) => match pre xs with
      | .error t => s.faultFrom s' n t
      | .ok _ =>
        let fuel := match stop with
          | some p => 8 * p
          | none => (xs.headD 0).toNat
        match s1.longRun (step n) final n (entryWord false code) fuel xs with
        | (ys, s2, .fault t) =>
          if t = stallTrap then (if ys = xs then s else s.unlessDrained (s2.forget.longCommit n ys (progWord code 0)))
          else if ys = xs then s.faultFrom (s'.updCtx n fun c => { c with prog := progWord code 0 }) n t
          else s.unlessDrained ((s2.forget.longCommit n ys (progWord code 0)).faultFrom
            (s2.forget.longCommit n ys (progWord code 0)) n t)
        | (ys, s2, .safePoint) =>
          if ys = xs then s else s.unlessDrained (match s'.judge n (s2.longCommit n ys (progWord code 0)) with
            | .goes s => s.stepEnds.takePending
            | .instead s => s)
        | (ys, s2, .abandoned) =>
          s.unlessDrained (match s'.judge n (s2.longCommit n ys (progWord code 0)) with
            | .goes s => s
            | .instead s => s)
        | (_, s2, .done r) =>
          s.judgeRetire s' n (s2.updCtx n fun c => { c with oc := r.toList ++ c.oc, prog := 0 }.advance) (s'.ctx n).lkc

/-- An image operand and the words from it on (R109, R152): one assigned area holds them all. -/
def imageRange (pa count : Word) : Except Trap Unit :=
  match vectorWord pa with
  | .error t => .error t
  | .ok w =>
    if areaOf (w + count.toNat - 1) ≠ areaOf w ∧ count ≠ 0 then .error ⟨2, 2, 15, false, none, none⟩ else .ok ()

/-- The lowest point at 1 of an image word, from the point address of its first point. -/
def firstPoint (pa : Word) (x : DWord) : Option Word := (lowestSet x).map fun b => pa + BitVec.ofNat 32 b

/-- IMGSCAN ( pa n -- p ). -/
def execImgscan (stop : Option Nat) (s : State) : Out :=
  .next (s.runLong 0x0510 2 stop (fun xs => imageRange (xs.getD 1 0) (xs.getD 0 0))
    (fun _ xs s =>
      let pa := xs.getD 1 0
      match s.imageReady (pa.toNat / 64) with
      | .error t => .error t
      | .ok s =>
        let s := s.note (imgAddr (pa.toNat / 64)) 8 false ((s.img (pa.toNat / 64)).setWidth 32)
        .ok ⟨firstPoint pa (s.img (pa.toNat / 64)), [xs.getD 0 0 - 1, pa + 64], s⟩)
    (some 0xFFFFFFFF))

/-- IMGCMP ( pa1 pa2 n -- p ). DESIGN CHOICE: pa1 and its range are checked before pa2, where both fail. -/
def execImgcmp (stop : Option Nat) (s : State) : Out :=
  .next (s.runLong 0x0511 3 stop
    (fun xs => match imageRange (xs.getD 2 0) (xs.getD 0 0) with
      | .error t => .error t
      | .ok _ => imageRange (xs.getD 1 0) (xs.getD 0 0))
    (fun _ xs s =>
      let p1 := xs.getD 2 0
      let p2 := xs.getD 1 0
      match s.imageReady (p1.toNat / 64) with
      | .error t => .error t
      | .ok s => match s.imageReady (p2.toNat / 64) with
        | .error t => .error t
        | .ok s =>
          let s := (s.note (imgAddr (p1.toNat / 64)) 8 false ((s.img (p1.toNat / 64)).setWidth 32)).note
            (imgAddr (p2.toNat / 64)) 8 false ((s.img (p2.toNat / 64)).setWidth 32)
          .ok ⟨firstPoint p1 (s.img (p1.toNat / 64) ^^^ s.img (p2.toNat / 64)),
            [xs.getD 0 0 - 1, p2 + 64, p1 + 64], s⟩)
    (some 0xFFFFFFFF))

/-- Read `size` bytes for a long instruction through selector k. -/
def State.longFetch (s : State) (n k : Nat) (o : Word) (size : Nat := 4) : Except Trap (Word × State) :=
  match s.check (s.ctx n) k .load o.toNat size size with
  | .error t => .error t
  | .ok a => match s.fetchAt n k a size with
    | .error t => .error t
    | .ok (v, s) => .ok (BitVec.ofNat 32 v, s)

/-- The same, noted for the comparators. -/
def State.longRead (s : State) (n k : Nat) (o : Word) (size : Nat := 4) : Except Trap (Word × State) :=
  match s.longFetch n k o size with
  | .error t => .error t
  | .ok (v, s) => .ok (v, s.note (dBase ((s.ctx n).seg k) + o.toNat) size false v)

/-- Write `size` bytes for a long instruction through selector k: they enter the store buffer. -/
def State.longWrite (s : State) (n k : Nat) (o v : Word) (size : Nat := 4) : Except Trap State :=
  match s.check (s.ctx n) k .store o.toNat size size with
  | .error t => .error t
  | .ok a =>
    if regionOf a = .ib && s.imageHeld then .error stallTrap
    else
      let v : Word := BitVec.ofNat 32 (v.toNat % 2 ^ (8 * size))
      .ok ((s.note a size true v).pushStore ⟨a, size, v, some n⟩)

/-- BLKMOV s, d ( src dst n -- ), word by word in ascending order. -/
def execBlkmov (sg d : BitVec 3) (stop : Option Nat) (s : State) : Out :=
  .next (s.runLong (0x0540 + 8 * sg.toNat + d.toNat) 3 stop (fun _ => .ok ())
    (fun n xs s =>
      let src := xs.getD 2 0
      let dst := xs.getD 1 0
      match s.longRead n sg.toNat src with
      | .error t => .error t
      | .ok (v, s) => match s.longWrite n d.toNat dst v with
        | .error t => .error t
        | .ok s => .ok ⟨none, [xs.getD 0 0 - 1, dst + 4, src + 4], s⟩)
    none)

/-- BLKFIL d ( x dst n -- ). -/
def execBlkfil (d : BitVec 3) (stop : Option Nat) (s : State) : Out :=
  .next (s.runLong (0x0580 + d.toNat) 3 stop (fun _ => .ok ())
    (fun n xs s =>
      let x := xs.getD 2 0
      let dst := xs.getD 1 0
      match s.longWrite n d.toNat dst x with
      | .error t => .error t
      | .ok s => .ok ⟨none, [xs.getD 0 0 - 1, dst + 4, x], s⟩)
    none)

/-! ### SAVEL and SAVEU (R153) -/

/-- The 24 words of a context's lower half (R88). -/
def Ctx.lowerWords (c : Ctx) : List Word :=
  [c.pc, c.sw, c.acc.setWidth 32,
   BitVec.ofNat 32 (c.acc.toNat / 2 ^ 32 + c.la.toNat * 2 ^ 8 + c.ls.toNat * 2 ^ 9 + c.ldepth * 2 ^ 25),
   BitVec.ofNat 32 (c.oc.length + c.rc.length * 2 ^ 5 + c.iwn * 2 ^ 9), c.osp, c.rsp, c.prog]
  ++ (List.range 8).flatMap fun k => [(descBits (c.seg k)).1, (descBits (c.seg k)).2]

/-- The 24 words of a context's upper half (R89). -/
def Ctx.upperWords (c : Ctx) : List Word :=
  ((List.range 16).map fun i => c.oc.getD i 0) ++ ((List.range 8).map fun i => c.rc.getD i 0)

/-- Store words into the save area, from an address on. -/
def State.saveWords (s : State) (n a : Nat) : List Word → State
  | [] => s
  | w :: ws => ((s.note a 4 true w).pushStore ⟨a, 4, w, some n⟩).saveWords n (a + 4) ws

/-- SAVEL and SAVEU ( ctx off -- link ): the words of ctx go to words 1 to 24 of the save area and the link in word 0 is
pushed. Interrupted at its one safe point, the instruction keeps word 12's place, and goes on from there only while ctx
has retired nothing since (R153). -/
def State.saveOp (s : State) (code : Nat) (sel : BitVec 3) (stop : Option Nat) (words : Ctx → List Word) : State :=
  let op := code + sel.toNat
  match s.issue { code := op, priv := true, noSlot := true, noLock := true, k4ill := true, long := true } with
  | .idle => s
  | .fault n s' t => s.faultFrom s' n t
  | .abandon s' => s'
  | .go n s' =>
    match (s'.updCtx n fun c => c.begin true).popN n 2 with
    | .error t => s.faultFrom s' n t
    | .ok (xs, s1) =>
      let off := xs.getD 0 0
      let m := (xs.getD 1 0).toNat
      if 63 < m ∨ m = n then s.faultFrom s' n ⟨1, 5, 15, false, none, none⟩
      else match s1.check (s1.ctx n) sel.toNat .both off.toNat 128 128 with
        | .error t => s.faultFrom s' n t
        | .ok a =>
          if regionOf a = .ib && s.imageHeld then s
          else match s1.longRead n sel.toNat off with
            | .error t => s.faultFrom s' n t
            | .ok (link, s2) =>
              let c := s2.ctx n
              let ws := words (s2.ctx m)
              let resumed := decide (c.prog = progWord op 12) && decide (c.saveMark = some (m, (s2.ctx m).retired))
              let half := s2.saveWords n (a + 4) (ws.take 12)
              let second := if resumed then (true, s2) else half.stretchGood n (entryWord false op) 1
              if (stop.isSome || !second.1) && !resumed then
                s.unlessDrained (match s'.judge n (((if stop.isSome then half else second.2).longCommit n xs (progWord op 12)).updCtx n
                  fun c => { c with saveMark := some (m, (s2.ctx m).retired) }) with
                | .goes s => if stop.isSome then s.stepEnds.takePending else s
                | .instead s => s)
              else
                let s3 := if resumed then s2.saveWords n (a + 52) (ws.drop 12)
                  else if s2.mcs.bad = [] then s2.saveWords n (a + 4) ws
                  else second.2.saveWords n (a + 52) (ws.drop 12)
                s.judgeRetire s' n (s3.updCtx n fun c =>
                  { c with oc := link :: c.oc, prog := 0, saveMark := none }.advance) (s'.ctx n).lkc

def execSavel (sel : BitVec 3) (stop : Option Nat) (s : State) : Out :=
  .next (s.saveOp 0x0640 sel stop Ctx.lowerWords)
def execSaveu (sel : BitVec 3) (stop : Option Nat) (s : State) : Out :=
  .next (s.saveOp 0x0648 sel stop Ctx.upperWords)

end Sys2Proof.Machine
end

