-- ==== Sys2Proof/Machine/Slot.lean ====
section
/-! DEFINITION. The words of a context slot (R88, R89, R185) as something other than its own context reads and writes
them: a debugger (R432, R434) and the state frames of a resynchronisation (R387). -/

namespace Sys2Proof.Machine

/-- Word i of a context's slot, 0 to 47. -/
def Ctx.word (c : Ctx) (i : Nat) : Word := (c.lowerWords ++ c.upperWords).getD i 0

/-- The bits of SW that exist (R94), and those of them that a debugger's write changes (R434). -/
abbrev swBits : Word := 0x3F007FFF
abbrev swDebug : Word := 0x00000BFF

/-- A list of words cut or filled up with zeros to n. -/
def toLen (l : List Word) (n : Nat) : List Word := (l ++ List.replicate n 0).take n

/-- Write word i of a context's slot; `m` is the mask of the SW bits that the write reaches. Entries beyond OCNT,
RCNT or LDEPTH read 0 and keep nothing, and reserved bits ignore it. -/
def Ctx.setWord (c : Ctx) (m : Word) (i : Nat) (v : Word) : Ctx :=
  match i with
  | 0 => { c with pc := v &&& 0xFFFFFFFE }
  | 1 => { c with sw := (c.sw &&& ~~~m) ||| (v &&& m) }
  | 2 => { c with acc := setFld c.acc 31 0 v.toNat }
  | 3 => { c with
      acc := setFld c.acc 39 32 (fld v 7 0), la := bit v 8
      ls := BitVec.ofNat 16 (fld v 24 9 % 2 ^ min (fld v 29 25) 16)
      ldepth := min (fld v 29 25) 16 }
  | 4 => { c with oc := toLen c.oc (min (fld v 4 0) 16), rc := toLen c.rc (min (fld v 8 5) 8), iwn := fld v 21 9 }
  | 5 => { c with osp := v }
  | 6 => { c with rsp := v }
  | 7 => { c with prog := v }
  | _ =>
    if i < 24 then
      let d := c.seg ((i - 8) / 2)
      c.setSeg ((i - 8) / 2) (descBits (if i % 2 = 0 then (v, d.2) else (d.1, v)))
    else if i < 40 then { c with oc := c.oc.set (i - 24) v }
    else { c with rc := c.rc.set (i - 40) v }

/-- Write a run of words of a slot. -/
def Ctx.setWords (c : Ctx) (m : Word) (i : Nat) : List Word → Ctx
  | [] => c
  | w :: t => (c.setWord m i w).setWords m (i + 1) t

/-! ### The FP state in the layout of R206 -/

/-- FPSW and F0 to F7; the entries beyond FDEPTH are 0. -/
def State.fpWord (s : State) (i : Nat) : Word :=
  if i = 0 then s.fpswWord else if i < 9 then s.core.fp.getD (i - 1) 0 else 0

/-- Write a word of the FP state. -/
def State.setFpWord (s : State) (i : Nat) (v : Word) : State :=
  if i = 0 then { s with core := { s.core with fpsw := BitVec.ofNat 5 v.toNat, fp := toLen s.core.fp (min (fld v 11 8) 8) } }
  else if i < 9 then { s with core := { s.core with fp := s.core.fp.set (i - 1) v } }
  else s

end Sys2Proof.Machine
end

