-- ==== Sys2Proof/Machine/DebugBus.lean ====
section
/-! DEFINITION. What a debugger reads and writes: the answers, the address spaces (R428, R432 to R434), and an access that has stalled. -/

namespace Sys2Proof.Machine

/-! ### What a request is answered with (R428) -/

abbrev ackOK : Nat := 0
abbrev ackWAIT : Nat := 1
abbrev ackDENIED : Nat := 2
abbrev ackFAULT : Nat := 3
abbrev ackOFF : Nat := 4
abbrev ackECC : Nat := 5
abbrev ackPROTO : Nat := 6

/-! ### The address spaces (R432 to R434) -/

/-- An access to space 0 that is refused before it is made: the boot ROM's constant, what only the full level reads, and
addresses that are reserved, not aligned or mapped out. -/
def State.physRefusal (s : State) (a : Nat) : Option Nat :=
  if a % 4 ≠ 0 ∨ regEnd ≤ a ∨ regionOf a = .reserved then some ackFAULT
  else if 0x740F00 ≤ a ∧ a < 0x740F20 then some ackDENIED
  else if s.dbgLevel < 2 ∧ (regionOf a = .kb ∨ regionOf a = .rom ∨ regionOf a = .log) then some ackDENIED
  else if s.mappedOut a then some ackFAULT
  else none

/-- The access stalls while the engine holds the image bank (R19). -/
def State.dbgStalls (s : State) (a : Nat) : Bool := decide (regionOf a = .ib) && s.imageHeld

/-- A write to an I, Q, M or S word waits for the end of the program phase, a debug halt apart: during the phase no change from
outside the program becomes visible there, nor in a HOLD that suspends it (R13, R285). DEDUCED: it stalls as in a transfer. -/
def State.dbgWriteWaits (s : State) (a : Nat) : Bool :=
  (decide (s.scn.mode = .run) || decide (s.scn.mode = .hold)) && decide (s.scn.phase = .program) && decide (s.core.halt ≠ .debug)
    && decide (ibBase ≤ a) && decide (a < ibBase + 0x22000)

/-- The answer of an access that has been made or refused. -/
def answered (ack : Nat) (d : Option Word) (s : State) : Option (Nat × Option Word) × State := (some (ack, d), s)

/-- An access that stalls: its request stays in progress, and the access is made once it can be. -/
def State.stalled (s : State) : Option (Nat × Option Word) × State := (none, s)

/-- The stores come first that the buffer holds to the bank of an access, and every one before an access of XB or of a register
page (R168); where one of them stalls, the access stalls behind it. -/
def State.behindStores (s : State) (a : Nat) (f : State → Option (Nat × Option Word) × State) : Option (Nat × Option Word) × State :=
  let all := decide (regionOf a = .regs) || decide (regionOf a = .xb)
  let t := s.drainN (drainCount (fun e => all || decide (regionOf e.pa = regionOf a)) s.core.sb)
  if s.imageHeld && decide (t.ibWaiting < s.ibWaiting) then s.stalled else f t

/-- Read space 0. -/
def State.physRead (s : State) (live : Bool) (a : Nat) : Option (Nat × Option Word) × State :=
  match s.physRefusal a with
  | some k => answered k none s
  | none => s.behindStores a fun s =>
    if s.dbgStalls a then s.stalled
    else if !s.serves (domainOf a) then answered ackOFF none s.domainOff
    else if regionOf a = .regs then
      let r := s.accessRead .debugger live a
      answered ackOK (some r.1) r.2.1
    else
      let r := (s.touch (domainOf a)).eccRead a 0
      if r.1 then answered ackOK (some (r.2.w32 a)) r.2 else answered ackECC none r.2

/-- Read a space. -/
def State.spaceRead (s : State) (live : Bool) (space a : Nat) : Option (Nat × Option Word) × State :=
  match space with
  | 0 => s.physRead live a
  | 1 =>
    if 4096 ≤ a ∨ 48 ≤ a % 64 then answered ackFAULT none s
    else if !s.serves 2 then answered ackOFF none s.domainOff
    else answered ackOK (some ((s.ctx (a / 64)).word (a % 64))) s
  | 2 =>
    if 16 ≤ a then answered ackFAULT none s
    else if !s.serves 1 then answered ackOFF none s.domainOff
    else answered ackOK (some (s.fpWord a)) s
  | _ => answered ackFAULT none s

/-- The line buffer and the instruction-cache lines that hold a word are invalidated, as IMB does (R179, R434). -/
def State.imbAt (s : State) (a : Nat) : State :=
  let line := a / 32
  { s with core := { s.core with
      icache := Map.set (fun _ => []) s.core.icache (line % 256)
        ((Map.get (fun _ => []) s.core.icache (line % 256)).filter (· != line))
      lineBuf := none } }

/-- Write a word of a bank. -/
def State.physStore (s : State) (a : Nat) (v : Word) : Option (Nat × Option Word) × State :=
  let r := s.bankWrite a 4 v.toNat 0 true
  if !r.1 then answered ackECC none r.2
  else answered ackOK none (if regionOf a = .xb then r.2 else r.2.imbAt a)

/-- Write space 0. -/
def State.physWrite (s : State) (a : Nat) (v : Word) : Option (Nat × Option Word) × State :=
  match s.physRefusal a with
  | some k => answered k none s
  | none => s.behindStores a fun s =>
    match regionOf a with
    | .regs =>
      if !s.dbgMay a v then answered ackDENIED none s
      else if !s.serves (domainOf a) then answered ackOFF none s.domainOff
      else answered ackOK none (s.accessWrite .debugger a v).1
    | .db => if s.serves 6 then s.physStore a v else answered ackOFF none s.domainOff
    | .sb => if s.serves 6 then s.physStore a v else answered ackOFF none s.domainOff
    | .ib => if s.dbgStalls a || s.dbgWriteWaits a then s.stalled
      else if s.serves 7 then s.physStore a v else answered ackOFF none s.domainOff
    | .xb => if s.serves 8 then s.physStore a v else answered ackOFF none s.domainOff
    | _ => answered ackDENIED none s

/-- Write a space; contexts and FP state are written only in a debug halt. -/
def State.spaceWrite (s : State) (space a : Nat) (v : Word) : Option (Nat × Option Word) × State :=
  let halted := decide (s.core.halt = .debug) && s.dbg.step.isNone
  match space with
  | 0 => if s.dbgLevel < 2 && decide (regionOf a ≠ .regs) then answered ackDENIED none s else s.physWrite a v
  | 1 =>
    if 4096 ≤ a ∨ 48 ≤ a % 64 then answered ackFAULT none s
    else if s.dbgLevel < 2 || !halted then answered ackDENIED none s
    else if !s.serves 2 then answered ackOFF none s.domainOff
    else answered ackOK none (s.updCtx (a / 64) fun c => c.setWord swDebug (a % 64) v)
  | 2 =>
    if 16 ≤ a then answered ackFAULT none s
    else if s.dbgLevel < 2 || !halted then answered ackDENIED none s
    else if !s.serves 1 then answered ackOFF none s.domainOff
    else answered ackOK none (s.setFpWord a v)
  | _ => if s.dbgLevel < 2 then answered ackDENIED none s else answered ackFAULT none s

/-! ### The accesses of READ, READ_LIVE and WRITE -/

/-- The access that a request asks for, by its OP and the space in ADDR[31:28]; its level comes first (R427). -/
def State.dbgAccess (s : State) (q : DbgReq) : Option (Nat × Option Word) × State :=
  let space := q.addr / 2 ^ 28
  let a := q.addr % 2 ^ 28
  if s.dbgLevel < (if q.op = 3 then 2 else 1) then answered ackDENIED none s
  else if q.op = 4 then s.spaceWrite space a q.data
  else s.spaceRead (decide (q.op = 3)) space a

/-- The request is one of those. -/
def DbgReq.isAccess (q : DbgReq) : Bool := decide (2 ≤ q.op) && decide (q.op ≤ 4)

/-- An access that has stalled is made where it can be now, and its answer is stored for the repetition (R428). DESIGN CHOICE: it is made as the
engine lets the image bank go, as a debug halt is taken, or as the probe repeats its request, whichever comes first. -/
def State.dbgRetry (s : State) : State :=
  match s.dbg.req with
  | none => s
  | some q =>
    if !s.inRun 11 || s.dbg.resp.isSome || !q.isAccess then s else
    let r := s.dbgAccess q
    match r.1 with
    | some a => { r.2 with dbg := { r.2.dbg with resp := some a } }
    | none => s

end Sys2Proof.Machine
end

