-- ==== Sys2Proof/Machine/IsaSys.lean ====
section
/-! DEFINITION. The system and privileged instructions (R154 to R156), unassigned codes (R158), and the core's own
happenings that no instruction names: a synchronous fault, spills and fills, share slots, releases, the switch, timers
and the two overruns (R193 to R200, R215, R224). -/

namespace Sys2Proof.Machine

/-! ### System instructions -/

/-- SEGLD n ( idx -- ) (R102, R103): REASON 8 for every refusal. -/
def execSegld (n : BitVec 3) (s : State) : Out :=
  .next (if n = 0 then s.runNext { code := 0x0600 } fun _ _ => .error ⟨1, 0, 15, false, none, none⟩
    else s.runNext { code := 0x0600 + n.toNat, priv := true } fun c s => match s.popN c 1 with
      | .error t => .error t
      | .ok (xs, s) =>
        let idx := (xs.getD 0 0).toNat
        if 255 < idx ∨ idx = 0 then .error ⟨3, 8, n.toNat, false, none, none⟩
        else
          let s := s.drainAll
          let a := sdtBase + 8 * idx
          if !s.serves 6 then .error ⟨3, 5, n.toNat, true, none, none⟩
          else match (s.touch 6).eccRead a 0 with
            | (false, _) => .error ⟨3, 7, n.toNat, false, some a, none⟩
            | (true, s) =>
              let d := s.sdt idx
              if segldRefuses n.toNat idx d then .error ⟨3, 8, n.toNat, false, none, none⟩
              else
                let k := descCopy idx d
                .ok (s.updCtx c fun x =>
                  let x := x.setSeg n.toNat k
                  if n = 2 then { x with osp := emptySp k } else if n = 3 then { x with rsp := emptySp k } else x))

/-- A privileged instruction that takes a context number from TOS, the operands below it after it; a number above 63,
or 0 where `no0` says so, is out of range (R155, R191). -/
def State.ctxOp (s : State) (code k : Nat) (no0 : Bool)
    (body : Nat → Nat → List Word → State → Except Trap State) : State :=
  s.runNext { code := code, priv := true, k4ill := true } fun n s => match s.popN n k with
    | .error t => .error t
    | .ok (xs, s) =>
      let m := (xs.getD 0 0).toNat
      if 63 < m ∨ (no0 = true ∧ m = 0) then .error ⟨1, 5, 15, false, none, none⟩ else body n m xs s

/-- CREL ( n -- ) is a direct release (R193). -/
def execCrel (s : State) : Out := .next (s.ctxOp 0x0610 1 true fun _ m _ s => .ok (s.release m))

/-- CHLT ( n -- ) (R190); a context that halts itself does so as the instruction retires. -/
def execChlt (s : State) : Out := .next (s.ctxOp 0x0611 1 true fun _ m _ s => .ok (s.haltCtx m))

/-- CSTAT ( n -- st ) (R210). -/
def execCstat (s : State) : Out := .next (s.ctxOp 0x0612 1 false fun n m _ s => s.push n (s.cstat m))

/-- CPRIO ( pr n -- ); a priority above 15 is out of range (R155). -/
def execCprio (s : State) : Out :=
  .next (s.ctxOp 0x0613 2 false fun _ m xs s =>
    if 15 < (xs.getD 1 0).toNat then .error ⟨1, 5, 15, false, none, none⟩
    else .ok (s.updCtx m fun c => { c with prio := (xs.getD 1 0).toNat }))

/-- IMB ( off -- ) (R179): the store buffer drains, then the line buffer and the instruction-cache line of SEG0 offset
off are invalidated. -/
def execImb (s : State) : Out :=
  .next (s.runNext { code := 0x0618, k4ill := true } fun n s => match s.popN n 1 with
    | .error t => .error t
    | .ok (xs, s) =>
      let s := s.drainAll
      let d := (s.ctx n).seg 0
      let off := (xs.getD 0 0).toNat
      let line := (dBase d + off) / 32
      let ic := if off ≤ dLimit d then
          Map.set (fun _ => []) s.core.icache (line % 256)
            ((Map.get (fun _ => []) s.core.icache (line % 256)).filter (· != line))
        else s.core.icache
      .ok { s with core := ({ s.core with icache := ic, lineBuf := none }).heldMarks })

/-- RDICNT ( -- n ). -/
def execRdicnt (s : State) : Out :=
  .next (s.pushOp { code := 0x0628, k4ill := true } fun n s => BitVec.ofNat 32 (s.ctx n).icnt)

/-- RDCYC ( -- n ). -/
def execRdcyc (s : State) : Out :=
  .next (s.pushOp { code := 0x0629, k4ill := true } fun _ s => BitVec.ofNat 32 s.scn.runCyc)

/-- RDTIME ( -- t ). -/
def execRdtime (s : State) : Out :=
  .next (s.pushOp { code := 0x062A, k4ill := true } fun _ s => BitVec.ofNat 32 s.scn.tstart)

/-- EVOUT ( x m -- ) (R34). -/
def execEvout (s : State) : Out :=
  .next (s.runNext { code := 0x0630, k4ill := true } fun n s => match s.popN n 2 with
    | .error t => .error t
    | .ok (xs, s) =>
      let m : BitVec 8 := BitVec.ofNat 8 (xs.getD 0 0).toNat
      let x : BitVec 8 := BitVec.ofNat 8 (xs.getD 1 0).toNat
      .ok { s with car := { s.car with evtOut := (s.car.evtOut &&& ~~~m) ||| (x &&& m) } })

/-- EVOGET ( -- x ). -/
def execEvoget (s : State) : Out :=
  .next (s.pushOp { code := 0x0631, k4ill := true } fun _ s => s.car.evtOut.setWidth 32)

/-! ### Unassigned codes (R158) -/

/-- The assigned codes, as ranges (R137, R138, R139, R142, R148, R149, R152, R154, R157 and the formats above them). -/
def assignedRanges : List (Nat × Nat) :=
  [(0x0000, 0x000E), (0x0010, 0x001B), (0x0020, 0x0022), (0x0024, 0x0028), (0x0030, 0x0039), (0x0040, 0x0043),
   (0x0048, 0x0053), (0x0058, 0x0061), (0x0100, 0x010D), (0x0141, 0x0167), (0x0181, 0x01A7), (0x0200, 0x0247),
   (0x0300, 0x0303), (0x0308, 0x031B), (0x0320, 0x033F), (0x0400, 0x040B), (0x0410, 0x0413), (0x0418, 0x0419),
   (0x0420, 0x0421), (0x0500, 0x0505), (0x0510, 0x0511), (0x0540, 0x0587), (0x0601, 0x0607), (0x0610, 0x0613),
   (0x0618, 0x0618), (0x0628, 0x062A), (0x0630, 0x0631), (0x0640, 0x064F), (0x0F00, 0xFFFF)]

/-- The code is assigned to an instruction. -/
def assigned (w : Nat) : Bool := assignedRanges.any fun r => decide (r.1 ≤ w) && decide (w ≤ r.2)

/-- A code lies in a range. -/
def codeIn (w lo hi : Nat) : Bool := decide (lo ≤ w) && decide (w ≤ hi)

/-- Long instructions, SAVEL and SAVEU (R152, R153). -/
def longCode (w : Nat) : Bool := codeIn w 0x0510 0x0511 || codeIn w 0x0540 0x0587 || codeIn w 0x0640 0x064F

/-- LOCK, RETI, END_SCAN, ENDT and NETG. -/
def boundCode (w : Nat) : Bool := codeIn w 0x0308 0x030F || codeIn w 0x0318 0x031A || decide (w = 0x0301)

/-- Where an assigned code is forbidden (R131, R144, R145, R159). -/
def State.insnOf (s : State) (w : Nat) : Insn :=
  { code := w
    noSlot := codeIn w 0x2000 0x7FFF || codeIn w 0x0300 0x0303 || boundCode w || longCode w
    noLock := boundCode w || longCode w || (codeIn w 0x0400 0x0420 && !s.fpaNow)
    k4ill := codeIn w 0x0100 0x01FF || codeIn w 0x0240 0x0247 || codeIn w 0x0308 0x0317 || decide (w = 0x031A)
      || codeIn w 0x0320 0x033F || codeIn w 0x0400 0x05FF || codeIn w 0x0610 0x064F || codeIn w 0x1D00 0x1FFF
    only0 := decide (w = 0x0318)
    not0 := decide (w = 0x0319) }

/-- An unassigned code, or one that is forbidden where the running context stands, raises the illegal-instruction fault
(R126, R158). Any other code is the command of its own instruction, and nothing comes about here. -/
def execIllegalInstruction (w : BitVec 16) (s : State) : Out :=
  .next (if !assigned w.toNat then s.runFlow { code := w.toNat } fun _ _ => .error ⟨1, 0, 15, false, none, none⟩
    else match s.car.running with
      | none => s
      | some n => match s.illegalReason n (s.insnOf w.toNat) with
        | none => s
        | some _ => s.runFlow (s.insnOf w.toNat) fun _ s => .ok s)

/-! ### Synchronous faults, spills and fills -/

/-- The causes that R211 lists: a vector and a REASON. -/
def listedFault (vec reason : Nat) : Bool :=
  match vec with
  | 1 => decide (reason ≤ 7)
  | 2 => decide (reason ≤ 2)
  | 3 => decide (reason ≤ 8)
  | 6 => decide (reason ≤ 3)
  | 7 => decide (reason ≤ 3)
  | 8 => decide (reason ≤ 2)
  | 9 => decide (reason ≤ 2)
  | 10 => decide (reason = 1) || decide (reason = 2)
  | 12 => decide (reason ≤ 1)
  | 13 => decide (reason ≤ 1)
  | 14 => decide (reason = 0) || (decide (8 ≤ reason) && decide (reason ≤ 15))
  | v => decide (reason = 0) && (decide (v = 4) || decide (v = 5) || decide (v = 11) || decide (v = 15) || decide (v = 16))

/-- Context n runs an FP ownership transfer (R205) in which an access can be answered ABORTED: the domain of its save areas has been
reset (R57). -/
def State.fpTransfers (s : State) (n : Nat) : Bool :=
  !bit (s.ctx n).sw swFPA && !s.k4 n && decide ((s.ctx n).lkc = 0) && !s.serves 6 && (s.fpsa n).1 && fpsaValid (s.fpsa n).2
    && (s.core.fpown.isSome || (s.ctx n).fpv) && (!s.core.pin || s.core.fpown.isNone)

/-- FAULT_ENTRY: the running context takes a synchronous fault (R215). Vectors 11, 15 and 16 are entered only when they
are pending and due (R475). REASON 6 without a selector is an FP transfer's access answered ABORTED (R480). While Lantern interprets a
command and has the core, the fault is Lantern's own (R222), as of an access of 1 or 2 bytes to a register page (R19). -/
def execFaultEntry (vec reason seg : Nat) (s : State) : Out :=
  .next (if s.lanternBusy then (if listedFault vec reason then s.lanternFault vec reason else s) else
    match s.car.running with
    | none => s
    | some n =>
      if !s.coreRuns || s.core.held.isSome || !listedFault vec reason || !(decide (seg ≤ 7) || seg == 15) then s
      else if vec = 11 ∨ vec = 15 ∨ vec = 16 then
        (if (s.ctx n).dueVector = some vec then s.takePending else s)
      else if vec = 3 ∧ reason = 6 ∧ seg = 15 ∧ s.fpTransfers n then
        s.faultFrom (s.fpAborted n).2 n ⟨3, 6, 15, true, none, some (s.fpAborted n).1⟩
      else s.faultFrom s n ⟨vec, reason, seg, false, none, none⟩)

/-- A spill or fill of the running context, under way for an instruction that needs it: one that fails raises its
stack's fault, and its safe point lies after the fourth word (R200, R201). -/
def State.stackMove (s : State) (allowed : Ctx → Bool) (f : State → Nat → Except Trap State) : State :=
  match s.car.running with
  | none => s
  | some n =>
    if !s.coreRuns || s.core.held.isSome || !allowed (s.ctx n) then s
    else match f s n with
      | .error t => s.faultFrom s n t
      | .ok t => s.unlessDrained t.takePending

/-- A spill or fill of `words` words has run: it stands at its safe point after 4 of 8, and is complete otherwise (R202). -/
def State.moved (n words : Nat) (half : Half) (was : Option Half) (r : Except Trap State) : Except Trap State :=
  match r with
  | .error t => .error t
  | .ok s => .ok (s.updCtx n fun c => { c with half := if words = 4 ∧ was = none then some half else none })

/-- A spill moves 8 words, or 4 up to its safe point, or the 4 that were left (R200, R202). -/
def execOperandSpill (words : Nat) (s : State) : Out :=
  .next (s.stackMove (fun c => (decide (c.oc.length = 16) && decide (c.half = none) && (words == 8 || words == 4))
    || (decide (c.half = some .opSpill) && words == 4))
    fun s n => State.moved n words .opSpill (s.ctx n).half (s.opSpill n words))

/-- The operand entries that an instruction may need at most (R137 to R157). -/
abbrev mostOperands : Nat := 8

/-- A fill moves up to 8 words, or 4 up to its safe point, of a memory part that is not empty, for an instruction that needs more
operands than the cache holds; a fill of at most 4 words has no safe point before its end. -/
def execOperandFill (words : Nat) (s : State) : Out :=
  .next (s.stackMove (fun c => decide (0 < memWords c.osp (c.seg 2)) && ((decide (c.oc.length < mostOperands)
      && decide (c.half = none) && (words == 8 || words == 4)) || (decide (c.half = some .opFill) && words == 4)))
    fun s n => State.moved n (if memWords (s.ctx n).osp ((s.ctx n).seg 2) ≤ 4 then 8 else words) .opFill (s.ctx n).half
      (s.opFill n words))

def execReturnSpill (words : Nat) (s : State) : Out :=
  .next (s.stackMove (fun c => (decide (c.rc.length = 8) && decide (c.half = none) && (words == 8 || words == 4))
    || (decide (c.half = some .retSpill) && words == 4))
    fun s n => State.moved n words .retSpill (s.ctx n).half (s.retSpill n words))

/-- A return fill runs only where RCNT is 0 (R200). -/
def execReturnFill (words : Nat) (s : State) : Out :=
  .next (s.stackMove (fun c => decide (0 < memWords c.rsp (c.seg 3)) && ((decide (c.rc = [])
      && decide (c.half = none) && (words == 8 || words == 4)) || (decide (c.half = some .retFill) && words == 4)))
    fun s n => State.moved n (if memWords (s.ctx n).rsp ((s.ctx n).seg 3) ≤ 4 then 8 else words) .retFill (s.ctx n).half
      (s.retFill n words))

/-! ### Carillon -/

/-- Carillon takes the lowest set latch (R193), at an instruction boundary of the running context: a load that holds is none
(R194). -/
def execLatchTake (s : State) : Out :=
  .next (if s.car.running.isSome ∧ s.core.held.isSome then s else s.takeLatch)

/-- Lantern's entry at vector 1 is due between two instructions (R223): a machine check is pending, and Lantern may be entered: it
runs, no debug halt holds the core, and while it has the core itself its GM is 0, or the block is not in a HOLD and the boundary admits
it. -/
def State.lanternMayEnter (s : State) : Bool :=
  s.lanternRuns && decide (s.core.halt = .none)
    && (if s.lanternBusy then !s.lanternMasked else decide (s.scn.mode ≠ .hold) && s.boundaryFree)
def State.mcheckDue (s : State) : Bool := decide (s.reg Reg.EXC_MCPEND ≠ 0) && s.lanternMayEnter

/-- A share slot over a context on the core begins: Lantern is entered at vector 4 (R222). In HOLD and while no context has the core
Lantern needs none (R199). -/
def State.slotBegins (s : State) : State :=
  if s.car.running.isNone || s.core.lantern.slot || decide (s.scn.mode = .hold) then s else
  let s := (s.cancelYounger).lanternIn 4
  { s with core := { s.core with lantern := { s.core.lantern with slot := true } } }

/-- Lantern's work in a slot ends, and with it what its return stack held. -/
def State.slotEnds (s : State) : State :=
  let t := { s with core := { s.core with lantern := { s.core.lantern with slot := false, depth := 0 } } }
  if s.core.lantern.slot then t.lanternOut else t

/-- The switch to the selected context, and the vector that is due in the context on the core (R197, R475); a machine check that
is due comes first (R223). A release that would preempt the context that a share slot has interrupted ends the slot (R199). -/
def execContextSwitch (s : State) : Out :=
  let t := if s.core.lantern.slot && s.slotEnds.switchWaits then s.slotEnds else s
  .next (if t.mcheckDue ∧ t.switchWaits then s else t.dispatch)

/-- Lantern restarts the independent watchdog (R462). -/
def State.wdtRestart (s : State) : State :=
  { s with flt := { s.flt with wdtFrom := s.flt.ft, wdtWarned := false } }

/-- Lantern may have the core: nothing runs, a HOLD stands, or the running context stands at a boundary that R197 admits and lets Lantern
have share slots (R199, R281, R410). -/
def State.lanternTurn (s : State) : Bool :=
  s.lanternRuns && decide (s.core.halt = .none) && match s.car.running with
    | none => true
    | some n => decide (s.scn.mode = .hold) || (s.boundaryFree && s.slotAllowed n)

/-- Lantern's entry at vector 5 is due: H1 of housekeeping has passed, no context waits for the core, the boundary admits it, and Lantern
does not mask it (R223, R275). -/
def State.housekeepingDue (s : State) : Bool :=
  decide (s.scn.phase = .housekeeping) && decide (s.scn.mode = .run) && s.scn.h1Done && s.lanternTurn && !s.lanternMasked
    && !s.core.lantern.slot && s.readySet.all fun n => decide (s.car.running = some n)

/-- Interval timer n reaches its time and fires source 48 + n; it counts its next period (R195). -/
def execIntervalTimer (n : Nat) (s : State) : Out :=
  .next (match Map.get (fun _ => none) s.car.due n with
    | none => s
    | some t =>
      if !s.takesEvents || 15 < n then s else
      let s := (s.carry t).fire (48 + n)
      let p := s.f (Reg.CAR_TMR + 4 * n) 23 0
      { s with car := { s.car with due := Map.set (fun _ => none) s.car.due n (some (t + p)) } })

/-- A locked sequence has not retired 64 cc after LOCK: LKC becomes 0, and class 9 counts it (R144). -/
def execLockOverrun (s : State) : Out :=
  .next (match s.car.running with
    | none => s
    | some n => if !s.coreRuns || (s.ctx n).lkc = 0 then s
      else ((s.updCtx n fun c => c.setLkc 0).classify 9 0).takeHold)

/-- The count of R224 exceeds its limit: vector 11 is pending, and taken at once where the boundary admits it. A
follower raises it only from the preemption list (R225). An overrun of Lantern's own GM is a fault of Lantern's (R224). -/
def execMaskOverrun (s : State) : Out :=
  .next (if s.lanternBusy then (if bit s.core.lantern.sw swGM then (s.count Reg.EXC_GMOVR).lanternFault 11 0 else s) else
    match s.car.running with
    | none => s
    | some n => if !s.coreRuns || !bit (s.ctx n).sw swGM || s.follows then s
      else (s.updCtx n fun c => { c with vec11 := true }).takePending)

end Sys2Proof.Machine
end

