-- ==== Sys2Proof/Machine/Pair.lean ====
section
/-! DEFINITION. The records of a pair: runs of image words (R379), the DELTA record, the items of the housekeeping record
(R383), the configuration record of a resynchronisation (R387), the output signature (R385), and how a standby takes each
of them up. The layout of what R383 and R387 name without laying it out is the model's own. -/

namespace Sys2Proof.Machine

/-! ### Runs (R379) -/

/-- Numbered words in ascending order as runs: first number and words. -/
def runsOf : List (Nat × DWord) → List (Nat × List DWord)
  | [] => []
  | (i, v) :: t => match runsOf t with
    | (j, ws) :: r => if j = i + 1 then (i, v :: ws) :: r else (i, [v]) :: (j, ws) :: r
    | [] => [(i, [v])]

/-- A run with its header word. -/
def runWords (r : Nat × List DWord) : List DWord := BitVec.ofNat 64 (r.1 + r.2.length * 65536) :: r.2

/-- The numbered words of n runs, and what follows them. -/
def takeRuns : Nat → List DWord → List (Nat × DWord) × List DWord
  | 0, ws => ([], ws)
  | _, [] => ([], [])
  | n + 1, w :: t =>
    let c := fld w 31 16
    let r := takeRuns n (t.drop c)
    (((t.take c).zipIdx.map fun e => (fld w 14 0 + e.2, e.1)) ++ r.1, r.2)

/-! ### DELTA (R379) -/

/-- The DELTA record of the cycle in progress. -/
def State.deltaWords (s : State) : List DWord :=
  let i := runsOf (((List.range 4096).filter fun n => s.byte (stampAddr n) == BitVec.ofNat 8 s.scn.cyc).map fun n =>
    (n, s.img n))
  let q := runsOf (s.bcn.sChanged.map fun w => (w, s.img (16384 + w)))
  [ BitVec.ofNat 64 s.scn.cyc, BitVec.ofNat 64 (s.scn.tstart % 2 ^ 32 + min s.scn.runCyc 0xFFFFFFFF * 2 ^ 32),
    BitVec.ofNat 64 (s.bcn.final % 2 ^ 32 + min s.bcn.lastLen 0xFFFFFFFF * 2 ^ 32),
    BitVec.ofNat 64 (i.length + q.length * 65536 + s.scn.gdet.toNat * 2 ^ 32) ]
  ++ i.flatMap runWords ++ q.flatMap runWords

/-! ### The output signature (R385) -/

/-- The CRC-64 of the Q area. -/
def State.signature (s : State) : DWord :=
  BitVec.ofNat 64 (crc64 0 ((rangeFrom (imgAddr 4096) 32768).map s.byte))

/-! ### Items 3, 4, 6 and 7: governor, Beat, stations -/

/-- What has changed against what was told last, by key. -/
def newsOf (told new : List (Nat × List DWord)) : List (Nat × List DWord) :=
  new.filter fun e => Map.get (fun _ => []) told e.1 != e.2

/-- A 256-bit image as four words, and back. -/
def wide (x : BitVec 256) : List DWord := (List.range 4).map fun i => BitVec.ofNat 64 (x.toNat / 2 ^ (64 * i))
def narrow (ws : List DWord) : BitVec 256 :=
  BitVec.ofNat 256 ((List.range 4).foldl (fun n i => n + (ws.getD i 0).toNat * 2 ^ (64 * i)) 0)

/-- E and OFF of a member entry. -/
def State.memberWords (s : State) (i : Nat) : List DWord :=
  [BitVec.ofNat 64 (i + (s.energised i).toNat * 2 ^ 32), BitVec.ofNat 64 (s.offAt i)]

/-- The flags, charges and sag time of a group. -/
def State.groupWords (s : State) (g : Nat) : List DWord :=
  let x := s.grp g
  [BitVec.ofNat 64 (g + x.sag.toNat * 2 ^ 8 + x.defer.toNat * 2 ^ 9 + x.charges.length * 2 ^ 16 + x.defcnt * 2 ^ 32),
    BitVec.ofNat 64 x.seen] ++ x.charges.flatMap fun e => [BitVec.ofNat 64 e.1, BitVec.ofNat 64 e.2]

/-- Everything that a GOV item may tell, by key: member entries, and 4096 and more for groups. -/
def State.govTold (s : State) : List (Nat × List DWord) :=
  (s.gov.tab.map fun e => (e.1, s.memberWords e.1)) ++ s.gov.grps.map fun e => (4096 + e.1, s.groupWords e.1)

/-- A GOV item of some of it: the number of members, then members, then groups. -/
def govItem (l : List (Nat × List DWord)) : List DWord :=
  BitVec.ofNat 64 (l.filter fun e => decide (e.1 < 4096)).length :: l.flatMap (·.2)

/-- Take up n members. -/
def State.takeMembers (s : State) : Nat → List DWord → State × List DWord
  | 0, ws => (s, ws)
  | n + 1, w :: o :: t => ((s.setEnergised (fld w 11 0) (bit w 32)).setOff (fld w 11 0) o.toNat).takeMembers n t
  | _, _ => (s, [])

/-- Pairs of words as pairs of numbers. -/
def numPairs : List DWord → List (Nat × Nat)
  | a :: b :: t => (a.toNat, b.toNat) :: numPairs t
  | _ => []

/-- Take up groups; the first argument bounds their number. -/
def State.takeGroups (s : State) : Nat → List DWord → State
  | n + 1, w :: x :: t =>
    let c := fld w 31 16
    (s.setGrp (fld w 5 0) ⟨numPairs (t.take (2 * c)), bit w 8, x.toNat, bit w 9, fld w 63 32⟩).takeGroups n (t.drop (2 * c))
  | _, _ => s

/-- A standby takes up a GOV item (R384). -/
def State.takeGov (s : State) : List DWord → State
  | [] => s
  | w :: t =>
    let r := s.takeMembers w.toNat t
    r.1.takeGroups 64 r.2

/-- The BEAT item, and its taking up: the staging becomes ready (R384). -/
def State.beatItem (s : State) : List DWord := wide s.bea.staging ++ wide s.bea.strobed
def State.takeBeat (s : State) (ws : List DWord) : State :=
  State.stagingReady { s with bea := { s.bea with staging := narrow ws, strobed := narrow (ws.drop 4) } }

/-- The code of a station's state. -/
def StnSt.code : StnSt → Nat
  | .down => 0
  | .up => 1
  | .pending => 2
  | .failed => 3
def stnSt (n : Nat) : StnSt := match n with | 0 => .down | 1 => .up | 2 => .pending | _ => .failed
def HfSt.code : HfSt → Nat
  | .down => 0
  | .up => 1
  | .failed => 2
def hfSt (n : Nat) : HfSt := match n with | 0 => .down | 1 => .up | _ => .failed

/-- What a STN item tells of a station: its address, its state, MISS, whether it is identified and live. -/
def stnWord (k : Nat) (x : Stn) : DWord :=
  BitVec.ofNat 64 (k + x.st.code * 2 ^ 16 + x.ident.toNat * 2 ^ 20 + x.live.toNat * 2 ^ 21 + x.miss * 2 ^ 24)

/-- What a HFS item tells of a host-fed station: its number, its state, and the sample time. -/
def hfsWords (n : Nat) (x : HfStn) : List DWord :=
  [BitVec.ofNat 64 (n + x.st.code * 2 ^ 16 + x.never.toNat * 2 ^ 20), BitVec.ofInt 64 x.sample]

/-- Take up a STN word: an item of a station that is not configured cannot be applied. -/
def State.takeStn (s : State) (w : DWord) : Option State :=
  (s.stn (fld w 15 0)).map fun x =>
    s.setStn (fld w 15 0) (some { x with st := stnSt (fld w 17 16), ident := bit w 20, live := bit w 21, miss := fld w 31 24 })

/-- Take up a HFS item. -/
def State.takeHfs (s : State) (w t : DWord) : Option State :=
  (s.hf (fld w 15 0)).map fun x =>
    s.setHf (fld w 15 0) (some { x with st := hfSt (fld w 17 16), never := bit w 20, sample := t.toInt })

/-- Take up the words of a STN or HFS item. -/
def State.takeStns (s : State) : List DWord → Option State
  | [] => some s
  | w :: t => (s.takeStn w).bind fun s => s.takeStns t
def State.takeHfss (s : State) : List DWord → Option State
  | w :: x :: t => (s.takeHfs w x).bind fun s => s.takeHfss t
  | _ => some s

/-- The stations as a STN or HFS item may tell them, by station. -/
def State.stnTold (s : State) : List (Nat × List DWord) := s.stations.map fun e => (e.1, [stnWord e.1 e.2])
def State.hfTold (s : State) : List (Nat × List DWord) := s.hostFed.map fun e => (e.1, hfsWords e.1 e.2)

/-- A primary notes the station items of H2. -/
def State.tellStations (s : State) : State :=
  if !s.replicates then s else
  let a := newsOf s.bcn.toldStn s.stnTold
  let b := newsOf s.bcn.toldHf s.hfTold
  let s := if a.isEmpty then s else s.tell 6 (a.flatMap (·.2))
  let s := if b.isEmpty then s else s.tell 7 (b.flatMap (·.2))
  { s with bcn := { s.bcn with toldStn := s.stnTold, toldHf := s.hfTold } }

/-- A primary notes the items of its output transfer: the signature, the words of the shadow output that changed, the
governor and the Beat unit. -/
def State.tellOutput (s : State) (sig : DWord) (before : Nat → DWord) : State :=
  if !s.replicates then s else
  let s := s.tell 1 [sig]
  let ch := ((List.range 4096).filter fun w => s.shOut w != before w).map fun w => (w, s.shOut w)
  let s := s.tell 2 ((runsOf ch).flatMap runWords)
  let g := newsOf s.bcn.toldGov s.govTold
  let s := s.tell 3 (govItem g)
  let s := { s with bcn := { s.bcn with toldGov := s.govTold } }
  s.tell 4 s.beatItem

/-! ### The states of a resynchronisation (R387) -/

/-- A STATE frame: its kind, its address or number, its data. -/
def State.sendState (s : State) (kind num : Nat) (ws : List DWord) : State :=
  s.sendFrame tSTATE true true (BitVec.ofNat 64 (kind + num * 256) :: ws)

/-- Send a 4 KiB page of a bank, as Lantern reads it (R258). DEDUCED: a page of a mapped-out half, which holds nothing that the program
can reach (R264), is not sent. -/
def State.sendPage (s : State) (p : Nat) : State :=
  if s.mappedOut (4096 * p) then s else
  let r := s.lanternWords ((List.range 512).map fun i => 4096 * p + 8 * i)
  r.2.sendState 0 (4096 * p) r.1

/-- Send a list of pages. -/
def State.sendPages (s : State) (ps : List Nat) : State := ps.foldl State.sendPage s

/-- The Carillon state of a context beside its 48 words. -/
def Ctx.extraWords (c : Ctx) : List DWord :=
  let st := match c.st with | .idle => 0 | .waiting => 1 | .ready => 2 | .halted => 3
  [ BitVec.ofNat 64 (c.ctrl.toNat + c.entry.toNat * 2 ^ 32),
    BitVec.ofNat 64 (st + c.prio * 2 ^ 4 + c.pend.toNat * 2 ^ 8 + c.fpv.toNat * 2 ^ 9 + c.chain.toNat * 2 ^ 10
      + c.chainLant.toNat * 2 ^ 11 + c.vec11.toNat * 2 ^ 12 + c.vec15.toNat * 2 ^ 13 + c.vec16.toNat * 2 ^ 14
      + c.vstep % 4 * 2 ^ 18 + c.yielded.toNat * 2 ^ 20 + c.vec14.isSome.toNat * 2 ^ 21 + c.vec14.getD 0 % 256 * 2 ^ 24
      + (match c.slot with | .none => 0 | .notTaken => 1 | .taken _ => 2) * 2 ^ 16
      + (match c.slot with | .taken t => t.toNat | _ => 0) * 2 ^ 32),
    BitVec.ofNat 64 c.seq,
    match c.load with
    | some (d, v) => BitVec.ofNat 64 (v.toNat + d * 2 ^ 32 + 2 ^ 63)
    | none => 0,
    BitVec.ofNat 64 c.icnt, BitVec.ofNat 64 c.retired,
    match c.saveMark with
    | some (m, r) => BitVec.ofNat 64 (1 + m * 2 ^ 8 + r * 2 ^ 16)
    | none => 0 ]

/-- A context slot in a STATE frame: its 48 words and the Carillon state. -/
def Ctx.slotWords (c : Ctx) : List DWord := packWords (c.lowerWords ++ c.upperWords) ++ c.extraWords

/-- The context that such a frame spells. -/
def ctxOf (ws : List DWord) : Ctx :=
  let x i : DWord := ws.getD (24 + i) 0
  let f := x 1
  let c := ({} : Ctx).setWords swBits 0 (unpackWords (ws.take 24))
  { c with
    ctrl := BitVec.ofNat 32 (x 0).toNat, entry := BitVec.ofNat 32 ((x 0).toNat / 2 ^ 32)
    st := (match fld f 1 0 with | 0 => .idle | 1 => .waiting | 2 => .ready | _ => .halted)
    prio := fld f 7 4, pend := bit f 8, fpv := bit f 9, chain := bit f 10, chainLant := bit f 11
    vec11 := bit f 12, vec15 := bit f 13, vec16 := bit f 14, vstep := fld f 19 18
    yielded := bit f 20, vec14 := if bit f 21 then some (fld f 31 24) else none
    slot := (match fld f 17 16 with | 0 => .none | 1 => .notTaken | _ => .taken (BitVec.ofNat 32 (f.toNat / 2 ^ 32)))
    seq := (x 2).toNat
    load := if bit (x 3) 63 then some (fld (x 3) 62 32, BitVec.ofNat 32 (x 3).toNat) else none
    icnt := (x 4).toNat, retired := (x 5).toNat
    saveMark := if bit (x 6) 0 then some (fld (x 6) 15 8, fld (x 6) 63 16) else none }

/-- The FP state and FPOWN. -/
def State.fpWords (s : State) : List DWord :=
  packWords ((List.range 16).map s.fpWord)
    ++ [BitVec.ofNat 64 (s.core.fpown.getD 64 + s.core.pin.toNat * 2 ^ 8 + s.core.fpHalf.isSome.toNat * 2 ^ 9
      + (match s.core.fpHalf with | some (c, d) => c * 2 ^ 16 + d * 2 ^ 24 | none => 0)
      + s.core.fpSaved.isSome.toNat * 2 ^ 10 + s.core.fpSaved.getD 0 * 2 ^ 32)]

/-- Take up the FP state. -/
def State.takeFp (s : State) (ws : List DWord) : State :=
  let l := (unpackWords (ws.take 8)).zipIdx
  let s := l.foldl (fun s e => s.setFpWord e.2 e.1) s
  let o := ws.getD 8 0
  { s with core := { s.core with
      fpown := if fld o 6 0 < 64 then some (fld o 6 0) else none, pin := bit o 8
      fpHalf := if bit o 9 then some (fld o 23 16, fld o 31 24) else none
      fpSaved := if bit o 10 then some (fld o 39 32) else none } }

/-- A list of bytes as 64-bit words, filled up with zeros. -/
def bytesToDWords (bs : List Byte) : List DWord := packWords (bytesToWords bs)
def dwordsToBytes (ws : List DWord) : List Byte := ws.flatMap fun w => toBytes w.toNat 8

/-- The words of a station's configuration and state. -/
def stationWords (k : Nat) (x : Stn) : List DWord :=
  [ BitVec.ofNat 64 (x.w + x.ibase * 2 ^ 8 + x.qbase * 2 ^ 24 + x.pbase * 2 ^ 40),
    BitVec.ofNat 64 x.timeout, stnWord k x ] ++ x.dir ++ x.wben ++ x.safev ++ bytesToDWords x.subst

/-- The station that they spell. -/
def stationOf (ws : List DWord) : Stn :=
  let h := ws.getD 0 0
  let w := fld h 7 0
  let n := ws.getD 2 0
  { w := w, ibase := fld h 23 8, qbase := fld h 39 24, pbase := fld h 55 40, timeout := (ws.getD 1 0).toNat
    dir := (ws.drop 3).take w, wben := (ws.drop (3 + w)).take w, safev := (ws.drop (3 + 2 * w)).take w
    subst := (dwordsToBytes (ws.drop (3 + 3 * w))).take (16 * w)
    st := stnSt (fld n 17 16), ident := bit n 20, live := bit n 21, miss := fld n 31 24 }

/-- The words of a host-fed station's configuration and state. -/
def hostFedWords (k : Nat) (x : HfStn) : List DWord :=
  [ BitVec.ofNat 64 (x.wi + x.wq * 2 ^ 8 + x.errctx * 2 ^ 16 + x.ibase * 2 ^ 24 + x.qbase * 2 ^ 40),
    BitVec.ofNat 64 (x.pbase + x.timeout * 2 ^ 16 + x.hseq * 2 ^ 32) ] ++ hfsWords k x ++ bytesToDWords x.subst

/-- The host-fed station that they spell. -/
def hostFedOf (ws : List DWord) : HfStn :=
  let h := ws.getD 0 0
  let g := ws.getD 1 0
  let n := ws.getD 2 0
  { wi := fld h 7 0, wq := fld h 15 8, errctx := fld h 23 16, ibase := fld h 39 24, qbase := fld h 55 40
    pbase := fld g 15 0, timeout := fld g 31 16, hseq := fld g 63 32, subst := (dwordsToBytes (ws.drop 4)).take (16 * fld h 7 0)
    st := hfSt (fld n 17 16), never := bit n 20, sample := (ws.getD 3 0).toInt }

/-- A staged force change as a word. -/
def ForceOp.word : ForceOp → DWord
  | .set p v => BitVec.ofNat 64 (1 + v.toNat * 2 ^ 8 + p * 2 ^ 16)
  | .clear p => BitVec.ofNat 64 (2 + p * 2 ^ 16)
  | .clearAll => 3
def forceOpOf (w : DWord) : ForceOp :=
  match fld w 7 0 with
  | 1 => .set (fld w 63 16) (bit w 8)
  | 2 => .clear (fld w 63 16)
  | _ => .clearAll

/-- Pairs of an address and a value as words, and back. -/
def pairWord (e : Nat × Word) : DWord := BitVec.ofNat 64 (e.1 + e.2.toNat * 2 ^ 32)
def pairOf (w : DWord) : Nat × Word := (fld w 31 0, BitVec.ofNat 32 (w.toNat / 2 ^ 32))

/-- The configuration registers of the CAR, SCN, FLK, BEA and GOV pages. -/
def cfgPage (a : Nat) : Bool := pageOf a == 1 || (decide (6 ≤ pageOf a) && decide (pageOf a ≤ 9))
def State.cfgRegs (s : State) : List (Nat × Word) := s.regs.filter fun e => cfgPage e.1 && rwMask e.1 != 0

/-- Carillon, the engine and the mode as the final phase finds them. -/
def State.coreWords (s : State) : List DWord :=
  [ BitVec.ofNat 64 (s.car.running.getD 64 + s.scn.mode.code * 2 ^ 8 + s.scn.gdet.toNat * 2 ^ 12 + s.scn.stopOut.toNat * 2 ^ 13
      + s.scn.hsafe.toNat * 2 ^ 14 + s.scn.forced.toNat * 2 ^ 15 + s.scn.padMin * 2 ^ 16 + s.car.evtOut.toNat * 2 ^ 48),
    BitVec.ofNat 64 s.scn.cyc, BitVec.ofNat 64 (s.scn.tstart % 2 ^ 32 + min s.scn.runCyc 0xFFFFFFFF * 2 ^ 32),
    BitVec.ofNat 64 s.car.nextSeq, BitVec.ofNat 64 s.car.retired,
    BitVec.ofNat 64 (s.scn.wdog.toNat + s.scn.cycwarn * 2 ^ 32), BitVec.ofNat 64 s.scn.breaks ]

/-- The mode of a code of MODE[1:0]. -/
def modeOf (n : Nat) : Mode := match n with | 0 => .stop | 1 => .run | 2 => .hold | _ => .none

/-- Take them up. A standby's mode follows the primary's. -/
def State.takeCore (s : State) (ws : List DWord) : State :=
  let a := ws.getD 0 0
  let t := ws.getD 2 0
  let w := ws.getD 5 0
  let m := modeOf (fld a 9 8)
  let s := { s with
    car := { s.car with
      running := if fld a 6 0 < 64 then some (fld a 6 0) else none
      nextSeq := (ws.getD 3 0).toNat, retired := (ws.getD 4 0).toNat, latches := 0, pre := [], evtOut := BitVec.ofNat 8 (fld a 55 48) }
    scn := { s.scn with
      gdet := bit a 12, stopOut := bit a 13, hsafe := bit a 14, forced := bit a 15, padMin := fld a 39 16
      cyc := (ws.getD 1 0).toNat, tstart := fld t 31 0, runCyc := fld t 63 32
      wdog := BitVec.ofNat 32 w.toNat, cycwarn := fld w 63 32, breaks := (ws.getD 6 0).toNat
      phase := if m = Mode.run ∨ m = Mode.hold then .pad else .idle } }
  s.changeMode m 0 10

/-- The numbers of the sections of the configuration record. -/
abbrev secRegs : Nat := 0
abbrev secCopy : Nat := 1
abbrev secTab : Nat := 2
abbrev secForce : Nat := 3
abbrev secGov : Nat := 4
abbrev secBeat : Nat := 5
abbrev secCore : Nat := 6
abbrev secStn : Nat := 0x1000
abbrev secHf : Nat := 0x2000

/-- Cut a list into pieces of at most n elements; the first argument bounds their number. -/
def pieces {α : Type} (n : Nat) : Nat → List α → List (List α)
  | 0, _ => []
  | _, [] => []
  | f + 1, l => l.take n :: pieces n f (l.drop n)

/-- The sections of the configuration record, each of at most 1023 words. -/
def State.configSections (s : State) : List (Nat × List DWord) :=
  [ (secRegs, s.cfgRegs.map pairWord), (secCopy, s.flk.copy.map pairWord) ]
  ++ ((pieces 512 8 s.flk.tab).map fun l => (secTab, l.map pairWord))
  ++ (s.stations.map fun e => (secStn + e.1, stationWords e.1 e.2))
  ++ (s.hostFed.map fun e => (secHf + e.1, hostFedWords e.1 e.2))
  ++ ((pieces 512 s.scn.staged.length s.scn.staged).map fun l => (secForce, l.map ForceOp.word))
  ++ ((pieces 24 256 s.govTold).map fun l => (secGov, govItem l))
  ++ [ (secBeat, s.beatItem ++ wide s.bea.ready ++ wide s.bea.isReady), (secCore, s.coreWords) ]

/-- A standby takes up one section. Section 0 comes first and replaces the whole configuration. -/
def State.takeSection (s : State) (n : Nat) (ws : List DWord) : State :=
  if n = secRegs then
    { s with
      regs := (ws.map pairOf).foldl (fun m e => Map.set resetValue m e.1 e.2)
        (Map.drop (fun a => cfgPage a && rwMask a != 0) s.regs)
      flk := { s.flk with stns := [], hfs := [], staged := [], copy := [], tab := [] }
      scn := { s.scn with staged := [] }
      gov := {} }
  else if n = secCopy then
    { s with flk := { s.flk with copy := (ws.map pairOf).foldl (fun m e => Map.set resetValue m e.1 e.2) [] } }
  else if n = secTab then
    (ws.map pairOf).foldl (fun s e => s.setEntry e.1 e.2) s
  else if n = secForce then { s with scn := { s.scn with staged := s.scn.staged ++ ws.map forceOpOf } }
  else if n = secGov then s.takeGov ws
  else if n = secBeat then
    { s with bea := { s.bea with
        staging := narrow ws, strobed := narrow (ws.drop 4), ready := narrow (ws.drop 8), isReady := narrow (ws.drop 12) } }
  else if n = secCore then s.takeCore ws
  else if secHf ≤ n then s.setHf (n - secHf) (some (hostFedOf ws))
  else if secStn ≤ n then s.setStn (n - secStn) (some (stationOf ws))
  else s

/-- The final phase: dirty pages, context slots, FP state, the configuration record, and the closing frame (R387). -/
def State.sendFinal (s : State) : State :=
  let s := s.sendPages s.bcn.dirty
  let s := (List.range 64).foldl (fun s n => s.sendState 1 n (s.ctx n).slotWords) s
  let s := s.sendState 2 0 s.fpWords
  let s := s.configSections.foldl (fun s e => s.sendState 3 e.1 e.2) s
  let s := s.sendState 4 0 [BitVec.ofNat 64 s.scn.cyc]
  { s with bcn := { s.bcn with
      dirty := [], resync := .none, passSet := [], sync := true
      toldStn := s.stnTold, toldHf := s.hfTold, toldGov := s.govTold, items := [], relSent := s.car.pre.length } }

end Sys2Proof.Machine
end

