-- ==== Sys2Proof/Machine/Cycle.lean ====
section
/-! DEFINITION. The parts of the scan cycle (R271 to R277, R282): Lantern's work at H2 (R303, R314, R345), the S words of
pair and cascade (R398), the chain exchange (R396), the start of a cycle with its copy (R271, R291), and the entry to RUN
(R187, R282). -/

namespace Sys2Proof.Machine

/-! ### Host-fed stations (R314) -/

/-- A host-fed station drops out (R314). -/
def State.hfDropout (s : State) (n : Nat) : State :=
  match s.hf n with
  | none => s
  | some x =>
    let s := s.setHf n (some { x with st := .down, retMark := false })
    let s := s.putSubst x.subst x.ibase x.pbase x.wi
    let s := s.setHf n (some { x with st := .down, retMark := false, dropMark := true })
    ((s.markTask n x).classify 15 n).writeHf n

/-- The words of a feed reach the shadow input. -/
def State.putFeed (s : State) (ibase : Nat) (data : List DWord) : State :=
  (data.zipIdx).foldl (fun (s : State) e =>
    s.put64 (shInAddr (ibase + e.2)) e.1) s

/-- T of R314. -/
def State.hkT (s : State) : Int := s.scn.tstart

/-- A staged feed is judged (R314); one that no longer matches the configuration counts as superseded (R320). DESIGN CHOICE: so does that
of a station that has failed by then, which is discarded. -/
def State.feedOne (s : State) (n age hseq : Nat) (data : List DWord) : State :=
  match s.hf n with
  | none => s
  | some x =>
    if x.st = .failed ∨ data.length ≠ x.wi then s.setHf n (some { x with superseded := satInc x.superseded 0xFFFF })
    else if 100000 * x.timeout < age * 1000 then
      let s := (s.setHf n (some { x with stale := satInc x.stale 0xFFFF })).fire 98
      if x.st = .up then s.hfDropout n else s
    else
      let s := s.putFeed x.ibase data
      s.setHf n (some { x with
        st := .up, never := false, sample := s.hkT - Int.ofNat (age * 1000), hseq := hseq
        accepted := satInc x.accepted 0xFFFFFFFF, retMark := x.retMark || decide (x.st ≠ .up)
        dropMark := x.dropMark && decide (x.st = .up) })

/-- Station n at H2: its feed is judged, or its age if it has none (R314), and its S word takes its age (R315). -/
def State.hfTurn (s : State) (feed : Option (Nat × Nat × List DWord)) (n : Nat) : State :=
  let s := match s.hf n, feed with
    | some _, some (age, hseq, data) => s.feedOne n age hseq data
    | some x, none =>
      if x.st = HfSt.up ∧ 100000 * (x.timeout : Int) < s.hkT - x.sample then s.hfDropout n else s
    | none, _ => s
  match s.hf n with
  | none => s
  | some x => (s.setHf n (some { x with age := min ((s.hkT - x.sample) / 100000).toNat 0xFFFF })).writeHf n

/-! ### H2 (R275, R303, R345) -/

/-- A staged feed: station, AGE, HSEQ and data. -/
structure Feed where
  stn : Nat
  age : Nat
  hseq : Nat
  data : List DWord
  deriving DecidableEq, Repr

/-- The words that an item of staged work puts into the housekeeping record: its opcode and parameters. -/
def Staged.cmd : Staged → Nat × List Word
  | .station b => (0x20, bytesToWords b)
  | .feed n a h d => (0x21, [BitVec.ofNat 32 n, BitVec.ofNat 32 a, BitVec.ofNat 32 h, BitVec.ofNat 32 d.length] ++ unpackWords d)
  | .beat ws => (0x28, ws.flatMap fun e => [BitVec.ofNat 32 e.1, e.2])
  | .gov ws => (0x29, ws.flatMap fun e => [BitVec.ofNat 32 e.1, e.2])

/-- Apply staged work in acceptance order; the feeds are gathered, and are judged once every configuration stands (R320). -/
def State.applyStaged (s : State) (feeds : List Feed) : List Staged → State × List Feed
  | [] => (s, feeds)
  | x :: t =>
    match x with
    | .station b => (s.applyStation b).applyStaged feeds t
    | .feed n a h d => s.applyStaged (feeds.filter (fun f => f.stn != n) ++ [⟨n, a, h, d⟩]) t
    | .beat ws => (ws.foldl (fun (s : State) e => s.applyBeaReg e.1 e.2) s).applyStaged feeds t
    | .gov ws => (ws.foldl (fun (s : State) e => s.applyGovReg e.1 e.2) s).applyStaged feeds t

/-- H2: substitutes that are due, the staged work, and the host-fed stations in ascending order. -/
def State.h2 (s : State) : State :=
  let s := s.substBursts
  let work := s.flk.staged
  let s := { s with flk := { s.flk with staged := [] } }
  let s := work.foldl (fun (s : State) x => s.tellCmd x.cmd.1 2 x.cmd.2) s
  let r := s.applyStaged [] work
  r.1.hostFed.foldl (fun (s : State) e =>
    s.hfTurn ((r.2.find? fun f => f.stn == e.1).map fun f => (f.age, f.hseq, f.data)) e.1) r.1

/-! ### Lantern outside RUN -/

/-- What Lantern has to do outside RUN: substitutes that are due are written (R307); of what staging has left over, in STOP
configurations, constants and a pending commit are carried out at once, in HOLD station configurations; feeds stay staged
(R303, R345, R356, R368). -/
def State.lanternSettle (s : State) : State :=
  if !s.lanternRuns then s else
  let s := if s.scn.mode = .run then s else s.substBursts
  match s.scn.mode with
  | .stop =>
    let work := s.flk.staged.filter fun x => match x with | .feed .. => false | _ => true
    let feeds := s.flk.staged.filter fun x => match x with | .feed .. => true | _ => false
    let s := ({ s with flk := { s.flk with staged := feeds } }.applyStaged [] work).1
    let s := (s.drainAll).applyConsts
    s.runCommit
  | .hold =>
    let work := s.flk.staged.filter fun x => match x with | .station _ => true | _ => false
    let rest := s.flk.staged.filter fun x => match x with | .station _ => false | _ => true
    ({ s with flk := { s.flk with staged := rest } }.applyStaged [] work).1
  | _ => s

/-! ### The Chain (R393 to R397) -/

/-- This member takes part in the cascade: CHAIN_CONFIG is in force, PD10 in RUN, CP_REFCLK present, and the block drives
the Chain, in role 0 or 1 (R372, R373, R397). -/
def State.chainOn (s : State) : Bool :=
  bit (s.reg Reg.CHN_CFG) 8 && s.inRun 10 && !bit s.clk.lost 5 && decide (s.role ≤ 1)

/-- Send a Chain frame. -/
def State.sendChain (s : State) (f : CFrame) : State := { s with chn := { s.chn with tx := some f } }

/-- The members of the cascade. -/
def State.members8 (s : State) : List Nat := (List.range 8).filter fun k => bit (s.reg Reg.CHN_CFG) k

/-- The members whose slot of round r has arrived good, as bits. -/
def State.gotMask (s : State) (r : Nat) : Nat := bitsOf 8 fun k => s.chn.got.any fun g => g.1 == k && g.2.1 == r

/-- The Chain admits the start of a cycle (R395). -/
def State.chainReady (s : State) : Bool :=
  if !s.chainOn then true
  else if s.chainId = 0 then s.chn.waited || s.members8.all fun k => s.gotMask s.chn.rnd / 2 ^ k % 2 == 1
  else s.chn.token.isSome || s.chn.alone

/-- What the Chain unit does as a cycle starts: the master sends the token of the next round, another member takes the
round of its token or starts alone. -/
def State.chainStart (s : State) (first : Bool) : State :=
  if !bit (s.reg Reg.CHN_CFG) 8 then s
  else if !s.chainOn then
    { s.count Reg.CHN_ALONE with chn := { s.chn with alone := decide (s.chainId ≠ 0), ringok := false, valid := 0 } }
  else if s.chainId = 0 then
    let v := s.gotMask s.chn.rnd
    let r := (s.chn.rnd + 1) % 2 ^ 32
    let s := { s with chn := { s.chn with rnd := r, valid := v, waited := false, tokenBack := false, ringok := false, alone := false } }
    s.sendChain ⟨1, 0, r, [BitVec.ofNat 64 v]⟩
  else match s.chn.token with
    | some (r, v) => { s with chn := { s.chn with rnd := r, valid := v, token := none, alone := false } }
    | none =>
      if first ∧ !s.chn.alone then { s with chn := { s.chn with valid := 0 } }
      else { s.count Reg.CHN_ALONE with chn := { s.chn with valid := 0 } }

/-- Write slot k of the chain exchange area. -/
def State.putChain (s : State) (k : Nat) (ws : List DWord) : State :=
  (ws.zipIdx).foldl (fun (s : State) e =>
    s.put64 (chainArea + 512 * k + 8 * e.2) e.1) s

/-- RND of the content of slot k. -/
def State.srnd (s : State) (k : Nat) : Nat := Map.get (fun _ => 0) s.chn.srnd k
def State.setSrnd (s : State) (k r : Nat) : State :=
  { s with chn := { s.chn with srnd := Map.set (fun _ => 0) s.chn.srnd k r } }

/-- The slot of another member of the last round that the token's VALID names. -/
def State.slotOf (s : State) (k : Nat) : Option (List DWord) :=
  if s.chn.valid / 2 ^ k % 2 = 1 then
    (s.chn.got.find? fun g => g.1 == k && g.2.1 == (s.chn.rnd + 2 ^ 32 - 1) % 2 ^ 32).map (·.2.2)
  else none

/-- What a CHAIN item tells of slot k: its number with the RND of its content above it, and its words. -/
def State.chainItem (s : State) (k : Nat) (ws : List DWord) : List DWord := BitVec.ofNat 64 (k + s.srnd k * 2 ^ 32) :: ws

/-- Slot k at H3: written from what arrived, or left stale. -/
def State.exchangeSlot (s : State) (k : Nat) : State :=
  if k = s.chainId then s else
  match s.slotOf k with
  | some ws =>
    let s := (s.putChain k ws).setSrnd k ((s.chn.rnd + 2 ^ 32 - 1) % 2 ^ 32)
    let s := s.tell 8 (s.chainItem k ws)
    { s with chn := { s.chn with written := s.chn.written + 2 ^ k } }
  | none => { s.count Reg.CHN_MISS with chn := { s.chn with stale := s.chn.stale + 2 ^ k } }

/-- The chain exchange of H3, of a member in role 0 or 1 (R396). -/
def State.chainExchange (s : State) : State :=
  if !bit (s.reg Reg.CHN_CFG) 8 || decide (1 < s.role) then s else
  let me := s.chainId
  let r := (List.range 64).foldl (fun (r : List DWord × State) i =>
    let q := r.2.engRead (imgAddr (8192 + s.f Reg.CHN_MBASE 12 0 + i))
    (r.1 ++ [q.1.getD (r.2.w64 (chainArea + 512 * me + 8 * i))], q.2)) ([], s)
  let s := (r.2.putChain me r.1).setSrnd me r.2.chn.rnd
  let s := s.tell 8 (s.chainItem me r.1)
  let s := if s.chainOn then s.sendChain ⟨2, me, s.chn.rnd, r.1⟩ else s
  let s := { s with chn := { s.chn with written := 2 ^ me, stale := 0 } }
  (List.range 8).foldl State.exchangeSlot s

/-! ### S words 128 to 137 (R398) -/

/-- S word 128. -/
def State.pairWord (s : State) : DWord :=
  BitVec.ofNat 64 (s.bcn.role + s.partnerSeen.toNat * 8 + s.bcn.diverged.toNat * 16 + s.bcn.taken.toNat * 32
    + s.f Reg.BCN_STAT 5 5 * 64 + s.bcn.sync.toNat * 128 + (s.reg Reg.BCN_SYNCCYC).toNat * 2 ^ 32)

/-- S word 129. -/
def State.chainWord (s : State) : DWord :=
  BitVec.ofNat 64 (s.chainId + s.chainMaster.toNat * 8 + s.chn.alone.toNat * 16 + s.chn.ringok.toNat * 32
    + s.chn.written * 2 ^ 8 + s.chn.stale * 2 ^ 16 + s.chn.rnd * 2 ^ 32)

/-- The words are written to the shadow status at H3; DIVERGED and TAKEN are those of the cycle. -/
def State.pairStatus (s : State) : State :=
  let s := (s.putStat 128 s.pairWord).putStat 129 s.chainWord
  let s := (List.range 8).foldl (fun (s : State) k => s.putStat (130 + k) (BitVec.ofNat 64 (s.srnd k))) s
  { s with bcn := { s.bcn with diverged := false, taken := false } }

/-- Events 88 to 95 by the old and new values of S words 128 and 129 (R399). -/
def State.pairEvents (s : State) (w : Nat) (old new : DWord) : List Nat :=
  let rose (i : Nat) : Bool := !bit old i && bit new i
  let fell (i : Nat) : Bool := bit old i && !bit new i
  let pick (src : Nat) (b : Bool) : List Nat := if b then [src] else []
  if w = 128 then
    pick 88 (rose 4) ++ pick 89 (rose 7) ++ pick 90 (fell 3 || fell 7) ++ pick 91 (rose 5) ++ pick 92 (rose 6)
  else if w = 129 then
    pick 93 (rose 4) ++ pick 94 (s.members8.any fun k => rose (16 + k)) ++ pick 95 (fell 4 || rose 5)
  else []

/-! ### The start of a cycle (R271, R291) -/

/-- S words 0, 1 and 2 of the cycle that starts (R291). -/
def State.statusWords (s : State) : List DWord :=
  [ BitVec.ofNat 64 (s.scn.runFirst.toNat + s.scn.brk.toNat * 2 + s.scn.forced.toNat * 4 + s.scn.late.toNat * 8
      + s.scn.wdPrev.toNat * 16 + s.scn.holdRel.toNat * 32 + s.scn.genSw.toNat * 64 + s.scn.constP.toNat * 128
      + s.scn.imgErr.toNat * 256 + s.scn.gdet.toNat * 512),
    BitVec.ofNat 64 ((s.reg Reg.SCN_LASTCYC).toNat + min s.scn.maxRun 0xFFFFFFFF * 2 ^ 32),
    BitVec.ofNat 64 (s.reg Reg.SCN_PROGT).toNat ]

/-- Write an S word; its change is noted for DELTA. -/
def State.putS (s : State) (w : Nat) (v : DWord) : State :=
  if s.img (16384 + w) = v then s else
  let s := s.put64 (imgAddr (16384 + w)) v
  { s with bcn := { s.bcn with sChanged := s.bcn.sChanged ++ [w] } }

/-- I word n is copied with its forces (R271, R286, R292). -/
def State.copyI (s : State) (t : List ForceEnt) (n : Nat) : State :=
  let r := s.engRead (shInAddr n)
  let q := r.2.forceRead t n
  match r.1, q.1 with
  | some x, true => q.2.imgWrite n (overlay t n x) 1
  | _, _ => q.2

/-- S word w is copied; the sources that its change brings are noted (R312, R399). -/
def State.copyS (s : State) (w : Nat) : State :=
  let r := s.engRead (shStatAddr w)
  match r.1 with
  | none => r.2
  | some x =>
    let old := r.2.img (16384 + w)
    let ev := r.2.pairEvents w old x
    let pt := decide (256 ≤ w) && decide (w < 512) && !s.flk.quiet.contains w
      && (decide (fld old 8 4 ≠ fld x 8 4) || decide (fld old 63 16 ≠ fld x 63 16))
    let ev := if pt then ev ++ [4 * ((w - 256) / 32) + 3] else ev
    let s := r.2.putS w x
    if ev.isEmpty then s else { s with scn := { s.scn with fires := s.scn.fires ++ ev } }

/-- The marked dropouts and returns of the stations are noted, and the marks end (R312, R314). -/
def State.takeMarks (s : State) : State :=
  let f := s.stations.flatMap fun e =>
    (if e.2.dropMark then [4 * (e.1 / 32) + 1] else []) ++ (if e.2.retMark then [4 * (e.1 / 32) + 2] else [])
  let h := s.hostFed.flatMap fun e => (if e.2.dropMark then [96] else []) ++ (if e.2.retMark then [97] else [])
  let w := if s.scn.runFirst && decide (s.str.cause = 4) then [115] else []
  { s with
    scn := { s.scn with fires := s.scn.fires ++ f ++ h ++ w }
    flk := { s.flk with
      stns := s.flk.stns.map fun e => (e.1, e.2.map fun x => { x with dropMark := false, retMark := false })
      hfs := s.flk.hfs.map fun e => (e.1, e.2.map fun x => { x with dropMark := false, retMark := false })
      quiet := [] } }

/-- Step 3 of the input transfer (R271). The words that it reports are settled as it begins: an error that it meets is
reported in the next cycle (R292). -/
def State.inputCopy (s : State) : State :=
  let t := s.forces
  let s := { s with scn := { s.scn with fires := [], forced := !t.isEmpty } }
  let report := s.statusWords
  let s := State.readIndex { s with scn := { s.scn with imgErr := false } } t
  let s := (List.range 4096).foldl (fun (s : State) n => s.copyI t n) s
  let s := (report.zipIdx).foldl (fun (s : State) e => s.putS e.2 e.1) s
  let s := (rangeFrom 3 1021).foldl State.copyS s
  s.takeMarks

/-- The length of the cycle that ends is measured (R288, R291). -/
def State.measureCycle (s : State) (first : Bool) : State :=
  if first then { s with scn := { s.scn with maxRun := 0 } } else
  let len := min (s.clk.us - s.scn.tstart) 0xFFFFFFFF
  let s := s.setReg Reg.SCN_LASTCYC (BitVec.ofNat 32 len)
  let s := s.setReg Reg.SCN_MAXCYC (BitVec.ofNat 32 (max (s.reg Reg.SCN_MAXCYC).toNat len))
  { s with scn := { s.scn with maxRun := max s.scn.maxRun len }, bcn := { s.bcn with lastLen := len } }

/-- SCN_CTRL, SCN_WDOG, SCN_CYCWARN and SCN_PAD take effect for the cycle that starts (R281, R288, R294). -/
def State.latchScn (s : State) : State :=
  { s with scn := { s.scn with
    gdet := bit (s.reg Reg.SCN_CTRL) 0, stopOut := bit (s.reg Reg.SCN_CTRL) 1, hsafe := bit (s.reg Reg.SCN_CTRL) 2
    wdog := s.reg Reg.SCN_WDOG, cycwarn := s.f Reg.SCN_CYCWARN 23 0, padMin := s.f Reg.SCN_PAD 23 0 } }

/-- The counts of retired instructions start again (R194, R381). -/
def State.newCounts (s : State) : State :=
  { s with
    car := { s.car with
      retired := 0, pre := []
      ctxs := (s.car.ctxs.map fun e => (e.1, { e.2 with icnt := 0 })).filter fun e => decide (e.2 ≠ {}) }
    bcn := { s.bcn with final := s.car.retired, relSent := 0, lastHzn := 0, hkFirst := false, sChanged := [] } }

/-- The flags that S word 0 reports of what came before this cycle (R291). -/
def State.newFlags (s : State) : State :=
  { s with scn := { s.scn with
    brk := decide (s.scn.breaks ≠ 0), late := s.scn.warned, wdPrev := s.scn.wdExp.isSome, breaks := 0, warned := false
    wdExp := none, h1Done := false } }

/-- The flags that this cycle has reported end. -/
def State.endFlags (s : State) : State :=
  { s with scn := { s.scn with
    runFirst := false, brk := false, late := false, wdPrev := false, holdRel := false, genSw := false, constP := false } }

/-- CYC increases; OLC_SWCYC names the first cycle of a generation (R269, R270, R371). -/
def State.advanceCyc (s : State) : State :=
  let cyc := (s.scn.cyc + 128 * s.scn.breaks + 1) % 2 ^ 56
  let s := if s.scn.genSw then s.setReg Reg.OLC_SWCYC (BitVec.ofNat 32 cyc) else s
  { s with scn := { s.scn with cyc := cyc } }

/-- Step 1 of the input transfer: time, counts and latched settings. -/
def State.cycleStep1 (s : State) (first : Bool) : State :=
  let s := (s.measureCycle first).advanceCyc
  let s := { s with scn := { s.scn with
    tstart := s.clk.us, wdFrom := s.clk.us, runCyc := if first then 0 else s.scn.runCyc + 1, runFirst := first } }
  (s.newFlags.latchScn).newCounts

/-- The standby that completes a takeover becomes primary as cycle N + 1 starts (R390). -/
def State.becomePrimary (s : State) : State :=
  let s := { s with bcn := { s.bcn with
    role := 1, taking := false, taken := true, sync := false, decided := none, lastRx := none, partnerRole := 0
    deltas := [], entries := [], horizons := [], marks := [], hks := [], held := [], nak := false, retain := [] } }
  let s := s.sendFrame tTAKEN true true [BitVec.ofNat 64 s.scn.cyc]
  let s := (s.logPut 0x8041 0x0B (toBytes s.scn.cyc 4)).count Reg.BCN_TKCNT
  let s := s.finishJob (fun j => j.op == 0x31) rOK
  s.putStat 128 s.pairWord

/-- A cycle starts (R271). The one before it ends here, with the last of its releases and MARK 2 (R276, R382). -/
def State.startCycle (s : State) (first : Bool) : State :=
  let s := if first then s else s.sendHzn 2
  let s := State.cycleStep1 { s with car := { s.car with evtHeld := false } } first
  let s := if s.bcn.taking then s.becomePrimary else s
  let s := (s.chainStart first).setPhase .input
  (s.inputCopy).endFlags

/-! ### Entry to RUN (R187, R188, R282) -/

/-- An installation fails: the record for context 0 (R187, R477). -/
def State.installFails (s : State) : State :=
  s.logPut 0x8013 0x01 ([0, 0, 0, 0] ++ toBytes (s.reg Reg.CAR_ERR).toNat 4 ++ [1])

/-- DEFCNT counts from an entry to RUN on (R343). -/
def Grp.zeroDefcnt (x : Grp) : Grp := { x with defcnt := 0 }
def Gov.zeroDefcnt (x : Gov) : Gov :=
  { x with grps := (x.grps.map fun e => (e.1, e.2.zeroDefcnt)).filter fun e => decide (e.2 ≠ ({} : Grp)) }

/-- The first cycle after an entry to RUN has no cycle before it to report of (R291). -/
def State.noPrevious (s : State) : State :=
  { s with scn := { s.scn with warned := false, wdExp := none, holdRel := false, imgErr := false } }

/-- Enter RUN from STOP: the tables are installed, every context is initialised, the timers restart, a stamp break is made
and the first cycle starts. False where installation or context 0 fails, and after MCS_STAT.STUCK until a reset (R249). DESIGN CHOICE:
LAST_RUN names the start of every entry to RUN, SET_MODE's as well; R78 writes it at S9, and R80 calls it the last start that
entered RUN. -/
def State.tryRun (s : State) (cause : Nat) : Bool × State :=
  let s := s.lanternSettle
  let t := s.str.gen
  if s.stuck then (false, s) else
  if t = 0 ∨ !s.headerOk t then (false, s.installFails) else
  let r := s.tablesReadable t
  if !r.1 then (false, r.2.installFails) else
  let s := r.2.install t
  if s.ctx0Fails then (false, s.initCtx 0) else
  let s := s.initAll
  let s := { s with
    car := { s.car with latches := 0, pre := [], retired := 0, due := [] }
    str := { s.str with lastRun := s.str.startCount }
    gov := s.gov.zeroDefcnt }
  let s := (s.stampBreak).changeMode .run 0 cause
  let s := (List.range 16).foldl State.restartTimer s
  (true, s.noPrevious.startCycle true)

end Sys2Proof.Machine
end

