-- ==== Sys2Proof/Machine/Replay.lean ====
section
/-! DEFINITION. The standby's side of a pair: the order of frames (R377), what each frame does (R380 to R384, R387), the
replayed cycle (R380, R384), takeover (R388 to R390), and the primary's side of a resynchronisation (R387). -/

namespace Sys2Proof.Machine

/-! ### Takeover (R388 to R390) -/

/-- The stations with MISS 0. -/
def Flk.zeroMiss (f : Flk) : Flk :=
  { f with stns := f.stns.map fun (e : Nat × Option Stn) => (e.1, e.2.map fun (x : Stn) => { x with miss := 0 }) }

/-- The takeover runs: latches are cleared and taken from now on, the links poll with MISS 0, and the standby completes
its cycle; outside RUN it is primary at once, and EVT_OUT waits for its first cycle (R34). -/
def State.takeoverRun (s : State) : State :=
  let s := { s with
    car := { s.car with latches := 0 }
    bcn := { s.bcn with taking := true, decided := none }
    flk := s.flk.zeroMiss }
  if s.scn.mode = .run then s.programEnd else
    let s := s.becomePrimary
    { s with car := { s.car with evtHeld := true } }

/-- A takeover is decided: it runs at once, or waits for the bus guard or for the release of a HOLD (R389, R401). -/
def State.decideTakeover (s : State) : State :=
  if s.role ≠ 4 ∨ s.bcn.taking then s
  else if s.busLive ∨ s.scn.mode = .hold then
    { s with bcn := { s.bcn with decided := some (s.bcn.decided.getD s.clk.us) } }
  else s.takeoverRun

/-! ### The replayed cycle (R380, R384) -/

/-- An applied command of the housekeeping record: opcode, step and parameters. -/
structure HkCmd where
  op : Nat
  step : Nat
  ps : List Word
  deriving DecidableEq, Repr

/-- The command of a CMD item. -/
def cmdOf (x : HkItem) : HkCmd :=
  let h := x.ws.getD 0 0
  ⟨fld h 7 0, fld h 15 8, (unpackWords (x.ws.drop 1)).take (fld h 31 16)⟩

/-- The commands of a record for one step. -/
def HkRec.cmds (r : HkRec) (step : Nat) : List HkCmd :=
  ((r.items.filter fun x => x.item == 5).map cmdOf).filter fun c => c.step == step

/-- The record of the cycle in progress. -/
def State.hkRec (s : State) : Option HkRec := s.bcn.hks.find? fun r => r.cyc == s.cyc16

/-- The force change of a CMD item, if it is one. -/
def HkCmd.force (c : HkCmd) : Option ForceOp :=
  let p := c.ps.getD 0 0
  if c.op = 0x18 ∧ fld p 20 0 < 0x80000 then some (.set (fld p 20 0) (bit p 24))
  else if c.op = 0x19 ∧ bit p 31 then some .clearAll
  else if c.op = 0x19 ∧ fld p 20 0 < 0x80000 then some (.clear (fld p 20 0))
  else none

/-- The staged work of a CMD item, if it is any. -/
def HkCmd.work (c : HkCmd) : Option Staged :=
  let pairs : List (Nat × Word) := (List.range (c.ps.length / 2)).map fun i => ((c.ps.getD (2 * i) 0).toNat, c.ps.getD (2 * i + 1) 0)
  match c.op with
  | 0x20 => let b := wordsToBytes c.ps; if cbOk b then some (.station b) else none
  | 0x21 => some (.feed (c.ps.getD 0 0).toNat (c.ps.getD 1 0).toNat (c.ps.getD 2 0).toNat (packWords (c.ps.drop 4)))
  | 0x28 => some (.beat pairs)
  | 0x29 => some (.gov pairs)
  | _ => none

/-- All of a list, or nothing. -/
def allSome {α : Type} : List (Option α) → Option (List α)
  | [] => some []
  | none :: _ => none
  | some a :: t => (allSome t).map (a :: ·)

/-- The standby's output transfer and its H1 (R384): the signature is compared, and SOUT, GOV and BEAT are taken up. -/
def State.followOutput (s : State) (r : HkRec) : State :=
  let sig := s.signature
  let s := { s with bcn := { s.bcn with sig := sig, sigCyc := s.scn.cyc } }
  let items (n : Nat) : List (List DWord) := (r.items.filter fun x => x.item == n).map (·.ws)
  if (items 1).any fun ws => ws.headD 0 != sig then s.diverge 1 else
  let s := (items 2).foldl (fun (s : State) ws =>
    (takeRuns ws.length ws).1.foldl (fun (s : State) e => s.put64 (shOutAddr e.1) e.2) s) s
  let s := (items 3).foldl State.takeGov s
  let s := (items 4).foldl State.takeBeat s
  let s := s.setPhase .housekeeping
  match allSome ((r.cmds 1).map HkCmd.force) with
  | none => s.diverge 3
  | some ops =>
    let s := State.engineForces { s with scn := { s.scn with staged := s.scn.staged ++ ops } }
    { s with scn := { s.scn with h1Done := true, outCyc := s.scn.cyc } }

/-- A write to a replicated register is repeated (R383). -/
def State.repeatRegw (s : State) (w : DWord) : State :=
  (s.accessWrite .lantern (regBase + fld w 7 0 * 4096 + fld w 23 8) (BitVec.ofNat 32 (w.toNat / 2 ^ 32))).1

/-- A standby takes up a CHAIN item: the slot, the RND of its content, and with its own member's slot the RND of the cycle. -/
def State.takeChain (s : State) (ws : List DWord) : State :=
  let h := ws.headD 0
  let k := fld h 2 0
  let s := (s.putChain k (ws.drop 1)).setSrnd k (fld h 63 32)
  if k = s.chainId then { s with chn := { s.chn with rnd := fld h 63 32 } } else s

/-- H2 and H3 of a replayed cycle: the commands, the stations' states, register writes and chain slots. -/
def State.followH23 (s : State) (r : HkRec) (work : List Staged) : Option State :=
  let items (n : Nat) : List (List DWord) := (r.items.filter fun x => x.item == n).map (·.ws)
  let s := (items 9).foldl (fun (s : State) ws => ws.foldl State.repeatRegw s) s
  let s := State.h2 { s with flk := { s.flk with staged := work } }
  let s := { s with scn := { s.scn with errTasks := [] } }
  let s := (items 6).foldl (fun (o : Option State) ws => o.bind fun s => s.takeStns ws) (some s)
  let s := (items 7).foldl (fun (o : Option State) ws => o.bind fun s => s.takeHfss ws) s
  s.map fun s => (items 8).foldl State.takeChain s

/-- H5 of a replayed cycle: PATCH_CONST and the handover (R369); none where the standby does not hold the generation
with the same digest, or can never join the banks (R263). -/
def State.followH5 (s : State) (c : HkCmd) : Option State :=
  if c.op = 0x0C then some (s.applyConst (0 :: c.ps))
  else if c.op = 0x0A then
    let t := (c.ps.getD 0 0).toNat
    let d := wordsToBytes (c.ps.drop 1)
    if (s.verified t).isEmpty ∨ s.verified t ≠ d ∨ (t = 3 ∧ s.neverJoined) then none else some (s.handover t d).2
  else none

/-- H6 of a replayed cycle. -/
def State.followH6 (s : State) (c : HkCmd) : State :=
  if c.op = 0x03 ∧ c.ps.headD 1 = 0 then s.stopNow 0 else s

/-- A replayed housekeeping (R384). -/
def State.followHousekeeping (s : State) (r : HkRec) : State :=
  match allSome ((r.cmds 2).map HkCmd.work) with
  | none => s.diverge 3
  | some work =>
    match s.followH23 r work with
    | none => s.diverge 3
    | some s =>
      match (r.cmds 5).foldl (fun (o : Option State) c => o.bind fun s => s.followH5 c) (some s) with
      | none => s.diverge 3
      | some s =>
        let s := { s with
          scn := { s.scn with hkEnd := s.clk.us, h1Done := false }
          bcn := { s.bcn with hks := s.bcn.hks.filter fun x => x.cyc != r.cyc } }
        let s := (s.setPhase .pad).sendStatus 0
        (r.cmds 6).foldl State.followH6 s

/-- The words of the I runs and of the S runs of a DELTA record. -/
def deltaRuns (d : List DWord) : List (Nat × DWord) × List (Nat × DWord) :=
  let h := d.getD 3 0
  let r := takeRuns (fld h 15 0) (d.drop 4)
  (r.1, (takeRuns (fld h 31 16) r.2).1)

/-- An I word of the primary, with its stamp; the shadow input takes it as well (R320). -/
def State.putDeltaI (s : State) (e : Nat × DWord) : State :=
  ((s.put64 (imgAddr e.1) e.2).putStamp e.1 1).put64 (shInAddr e.1) e.2

/-- An S word of the primary; from word 3 on the shadow status takes it as well (R320), and word 129 tells its RND (R398). -/
def State.putDeltaS (s : State) (e : Nat × DWord) : State :=
  let s := s.putS e.1 e.2
  let s := if e.1 = 129 then { s with chn := { s.chn with rnd := fld e.2 63 32 } } else s
  if 3 ≤ e.1 then s.put64 (shStatAddr e.1) e.2 else s

/-- The standby starts a cycle from a DELTA record (R380). -/
def State.replayStart (s : State) (d : List DWord) (first : Bool) : State :=
  let old := s.cyc16
  let len := s.bcn.lastLen
  let t := d.getD 1 0
  let l := d.getD 2 0
  let cyc := fld (d.getD 0 0) 55 0
  let s := if s.scn.genSw then s.setReg Reg.OLC_SWCYC (BitVec.ofNat 32 cyc) else s
  let s := (((s.measureCycle first).newFlags).latchScn).newCounts
  let s := s.setReg Reg.SCN_LASTCYC (BitVec.ofNat 32 (fld l 63 32))
  let s := { s with
    scn := { s.scn with
      cyc := cyc, tstart := fld t 31 0, runCyc := fld t 63 32, gdet := bit (d.getD 3 0) 32, wdFrom := s.clk.us
      runFirst := first, imgErr := false }
    bcn := { s.bcn with
      lastLen := len, deltas := s.bcn.deltas.drop 1
      entries := s.bcn.entries.filter fun e => first || e.cyc != old
      horizons := s.bcn.horizons.filter fun e => first || e.1 != old
      marks := s.bcn.marks.filter fun e => first || e.1 != old } }
  let s := s.setPhase .input
  let r := deltaRuns d
  let s := r.1.foldl State.putDeltaI s
  let s := r.2.foldl State.putDeltaS s
  let s := s.takeMarks
  State.endFlags { s with scn := { s.scn with fires := [], forced := !s.forces.isEmpty } }

/-- The standby enters RUN with the first cycle of its primary (R187, R380). -/
def State.replayRun (s : State) : Option State :=
  let t := s.str.gen
  if s.scn.mode ≠ .stop ∨ t = 0 ∨ s.stuck ∨ !s.headerOk t then none else
  let r := s.tablesReadable t
  if !r.1 then none else
  let s := r.2.install t
  if s.ctx0Fails then none else
  let s := s.initAll
  let s := { s with
    car := { s.car with latches := 0, pre := [], due := [] }
    str := { s.str with lastRun := s.str.startCount } }
  let s := s.changeMode .run 0 10
  some ((List.range 16).foldl State.restartTimer s)

/-- The standby starts its next cycle where R380 lets it. -/
def State.standbyStart (s : State) : State :=
  if s.role ≠ 4 ∨ s.bcn.taking then s else
  match s.bcn.deltas with
  | [] => s
  | d :: _ =>
    let final := fld (d.getD 2 0) 31 0
    if fld (d.getD 1 0) 63 32 = 0 then
      match s.replayRun with
      | none => s.diverge 3
      | some s => s.replayStart d true
    else if s.scn.mode = .run ∧ s.scn.phase = .pad then
      if final < s.car.retired % 2 ^ 32 then s.diverge 2
      else if s.car.retired % 2 ^ 32 < final then
        if s.car.running.isNone && s.readySet.isEmpty && s.bcn.entries.all fun e => e.cyc != s.cyc16 then s.diverge 2 else s
      else if s.bcn.entries.any fun e => e.cyc == s.cyc16 then s
      else s.replayStart d false
    else s

/-! ### HELLO and the judgement of R387 -/

/-- The fields of a HELLO. -/
def helloRole (h : List DWord) : Nat := fld (h.getD 0 0) 2 0
def helloGen (h : List DWord) : Nat := fld (h.getD 0 0) 5 4

/-- KB's firmware digest and MCS_DIGEST agree with a partner's HELLO. -/
def State.sameStores (s : State) (h : List DWord) : Bool :=
  let own := s.helloWords
  h.getD 2 0 == own.getD 2 0 && h.getD 3 0 == own.getD 3 0

/-- A standby's HELLO shows that it holds this primary's generation. -/
def State.partnerHolds (s : State) (h : List DWord) : Bool :=
  let g := s.str.gen
  let d := digest8 s.str.genDigest
  let w := h.getD 0 0
  decide (g ≠ 0) && s.sameStores h
    && ((helloGen h == g && h.getD 1 0 == d)
      || (g == 1 && bit w 22 && h.getD 4 0 == d) || (g == 2 && bit w 23 && h.getD 5 0 == d)
      || (g == 3 && bit w 24 && h.getD 4 0 == d))

/-- This standby holds the generation of a primary's HELLO. -/
def State.holdsPartner (s : State) (h : List DWord) : Bool :=
  let g := helloGen h
  decide (g ≠ 0) && s.sameStores h
    && ((s.str.gen == g && digest8 s.str.genDigest == h.getD 1 0)
      || (!(s.verified g).isEmpty && digest8 (s.verified g) == h.getD 1 0))

/-- The primary begins a resynchronisation where the HELLO exchanges allow it; after a failed attempt the standby is in role 3
still. -/
def State.beginBulk (s : State) : State :=
  match s.bcn.hello with
  | some h =>
    if s.role = 1 ∧ (helloRole h = 2 ∨ helloRole h = 3) ∧ s.bcn.resync = .none ∧ !s.bcn.sync ∧ s.bcn.retryAt.isNone
        ∧ (s.scn.mode = .run ∨ s.scn.mode = .stop) ∧ s.partnerHolds h then
      { s with bcn := { s.bcn with resync := .bulk, passes := 0, dirty := [], passSet := [] } }
    else s
  | none => s

/-- Both blocks are in role 1 and in RUN (R391). DEDUCED: the partner's mode is that of its last KEEP, as HELLO names none (R376). -/
def State.roleConflict (s : State) : State :=
  if s.role = 1 ∧ s.bcn.partnerRole = 1 ∧ s.scn.mode = .run ∧ s.bcn.partnerMode = 1 then s.setB Reg.BCN_STAT 5 else s

/-- HELLO arrives (R387, R391). -/
def State.onHello (s : State) (h : List DWord) : State :=
  let s := { s with bcn := { s.bcn with hello := some h, partnerRole := helloRole h } }
  if s.role = 1 then
    if helloRole h = 1 then
      if s.scn.mode = .run then s.roleConflict else s.roleTwo
    else State.beginBulk { s with bcn := { s.bcn with sync := s.bcn.sync && decide (helloRole h ≠ 2) } }
  else if s.role = 2 ∧ helloRole h = 1 ∧ !s.holdsPartner h then { s with bcn := { s.bcn with lastDiv := 7 } }
  else s

/-! ### STATE frames (R387) -/

/-- The standby adopts the primary's generation as the bulk phase begins; one that can never join the banks adopts no joined one
(R263). -/
def State.adopt (s : State) : State :=
  match s.bcn.hello with
  | none => s
  | some h =>
    let g := helloGen h
    if g = s.str.gen ∨ (s.verified g).isEmpty ∨ (g = 3 ∧ s.neverJoined) then s else
    let d := s.verified g
    let s := { s with str := { s.str with gen := g, genDigest := d, genLen := s.genLenOf g } }
    let s := (targetPds g).foldl (fun (s : State) pd => s.dropTarget (pd - 3)) s
    (s.setReg Reg.OLC_GENID (BitVec.ofNat 32 (s.genId g))).clearForSwitch

/-- The first STATE frame of a resynchronisation puts the standby into role 3. -/
def State.beginState (s : State) : State :=
  State.adopt { s with bcn := { s.bcn with
    role := 3, deltas := [], entries := [], horizons := [], marks := [], hks := [], closing := false } }

/-- A STATE frame is taken up. A page that lies in a mapped-out half here is not written, a machine check of Lantern's (R264). -/
def State.onState (s : State) (ws : List DWord) : State :=
  let h := ws.headD 0
  let a := fld h 30 8
  let d := ws.drop 1
  match fld h 7 0 with
  | 0 => if s.mappedOut a then s.lanternOff a else s.overwrite a (dwordsToBytes d)
  | 1 => s.setCtx (a % 64) (ctxOf d)
  | 2 => s.takeFp d
  | 3 => s.takeSection a d
  | 4 => { s with bcn := { s.bcn with closing := true } }
  | _ => s

/-! ### What each frame does (R376) -/

/-- The preemption entries of a REL frame (R381). -/
def entriesOf (cyc : Nat) : Nat → List DWord → List PreIn
  | n + 1, w :: t =>
    let e (c : Option (Word × Word × Word)) : PreIn :=
      ⟨cyc, fld w 31 0, fld w 37 32, fld w 39 38, fld w 46 40, bit w 47, c⟩
    if bit w 48 then
      let a := t.getD 0 0
      e (some (BitVec.ofNat 32 a.toNat, BitVec.ofNat 32 (a.toNat / 2 ^ 32), BitVec.ofNat 32 (t.getD 1 0).toNat))
        :: entriesOf cyc n (t.drop 2)
    else e none :: entriesOf cyc n t
  | _, _ => []

/-- The first DELTA after the closing STATE frame puts the standby into role 4; its CYC is the first synchronised one (R387, R402). -/
def State.beginReplay (s : State) (ws : List DWord) : State :=
  if s.role = 3 ∧ s.bcn.closing then
    State.setReg { s with bcn := { s.bcn with role := 4, closing := false, sync := false } } Reg.BCN_SYNCCYC
      (BitVec.ofNat 32 (ws.headD 0).toNat)
  else s

/-- DELTA arrives (R380, R387). A replayed cycle that has not ended, its pad included, as the DELTA of LAG cycles later arrives makes the
standby diverge (R276, R384). -/
def State.onDelta (s : State) (ws : List DWord) : State :=
  let s := s.beginReplay ws
  if s.role ≠ 4 then s else
  let s := State.standbyStart { s with bcn := { s.bcn with
    deltas := s.bcn.deltas ++ [ws], lastDelta := s.clk.us, lastLen := fld (ws.getD 2 0) 63 32 } }
  if s.scn.phase ≠ .idle ∧ s.f Reg.BCN_REPL 23 16 ≤ s.bcn.deltas.length then s.diverge 5 else s

/-- A horizon of a cycle arrives (R382). Where it lets a core go on that has waited at the one before, BCN_STALL keeps the longest
such wait, whose length is a free value. -/
def State.putHorizon (s : State) (cyc h : Nat) : State :=
  let waits := s.coreRuns && (s.car.running.isSome || !s.readySet.isEmpty) && s.replayStalls && s.entriesDue.isEmpty
  let s := if waits && cyc == s.cyc16 && decide (s.car.retired < h) then
      (s.setReg Reg.BCN_STALL (BitVec.ofNat 32 (max (s.reg Reg.BCN_STALL).toNat (Config.horizonWait s.free % 2 ^ 32)))).tickFree
    else s
  { s with bcn := { s.bcn with horizons := s.bcn.horizons ++ [(cyc, h)] } }

/-- REL arrives: its entries, and a horizon at their count (R381, R382). -/
def State.onRel (s : State) (cyc : Nat) (ws : List DWord) : State :=
  let es := entriesOf cyc ws.length ws
  let s := s.putHorizon cyc (es.foldl (fun m e => max m e.count) 0)
  { s with bcn := { s.bcn with entries := s.bcn.entries ++ es } }

/-- HZN arrives (R382). -/
def State.onHzn (s : State) (cyc : Nat) (ws : List DWord) : State :=
  let w := ws.headD 0
  let s := s.putHorizon cyc (fld w 31 0)
  let s := if fld w 33 32 = 1 then { s with bcn := { s.bcn with marks := s.bcn.marks ++ [(cyc, fld w 31 0)] } } else s
  s.programEnd

/-- HK arrives: its items join the record of its cycle (R383). -/
def State.onHk (s : State) (cyc : Nat) (last : Bool) (ws : List DWord) : State :=
  let items := itemsOf ws.length ws
  let r := (s.bcn.hks.find? fun r => r.cyc == cyc).getD ⟨cyc, [], false⟩
  let r' : HkRec := ⟨cyc, r.items ++ items, r.closed || last⟩
  { s with bcn := { s.bcn with hks := (s.bcn.hks.filter fun x => x.cyc != cyc) ++ [r'] } }

/-- FAIL arrives (R388). -/
def State.onFail (s : State) (ws : List DWord) : State :=
  if s.role = 3 then s.roleTwo
  else if s.f Reg.BCN_CFG 1 1 = 1 ∨ fld (ws.headD 0) 7 0 = 0x80 then s.decideTakeover
  else s

/-- KEEP arrives: a synchronised standby follows its primary's HOLD, its own debug halt apart (R436), and a STOP that no record announces. A takeover that waited for
the release of the HOLD is judged again (R401). -/
def State.onKeep (s : State) (ws : List DWord) : State :=
  let w := ws.headD 0
  let s := State.roleConflict { s with bcn := { s.bcn with partnerMode := fld w 1 0, partnerRole := fld w 4 2 } }
  if s.role ≠ 4 ∨ s.bcn.taking then s
  else if fld w 1 0 = 2 ∧ s.scn.mode = .run then s.enterHold 0
  else if fld w 1 0 = 1 ∧ s.scn.mode = .hold ∧ s.core.halt ≠ .debug then
    let s := s.releaseHold 0
    if s.bcn.decided.isSome then s.decideTakeover else s
  else if fld w 1 0 = 0 ∧ (s.scn.mode = .run ∨ s.scn.mode = .hold) ∧ s.hkRec.isNone ∧ s.bcn.deltas.isEmpty then s.stopNow 10
  else s

/-- The frames of the retain buffer after a SEQ. -/
def State.framesAfter (s : State) (ack : Nat) : List BFrame :=
  s.bcn.retain.filter fun f =>
    let d := (f.seq + 65536 - ack) % 65536
    decide (0 < d) && decide (d < 32768)

/-- STATUS arrives (R377, R386): with NAK, the frames after ACKSEQ leave again, in SEQ order. -/
def State.onStatus (s : State) (ws : List DWord) : State :=
  let w := ws.headD 0
  let s := { s with bcn := { s.bcn with partnerRole := fld w 19 17 } }
  let again := if bit w 16 then s.framesAfter (fld w 15 0) else []
  let s := again.foldl (fun (s : State) _ => s.count Reg.BCN_RESEND) s
  let s := if again.isEmpty then s else { s with bcn := { s.bcn with again := again, lastTx := s.clk.us } }
  if fld w 23 20 ≠ 0 then { s with bcn := { s.bcn with diverged := true, sync := false } } else s

/-- TAKEN arrives (R391); a TAKEOVER that waits here is answered. -/
def State.onTaken (s : State) : State :=
  let s := if s.role = 1 ∨ s.role = 4 then s.roleTwo else s
  let s := { s with bcn := { s.bcn with partnerRole := 1 } }
  s.finishJob (fun j => j.op == 0x31) rOK

/-- The frame types that a role expects (R376). -/
def expects (role typ : Nat) : Bool :=
  match role with
  | 1 => [tKEEP, tHELLO, tSTATUS, tTAKEN].contains typ
  | 2 => [tSTATE, tHELLO, tKEEP, tFAIL, tTAKEN].contains typ
  | 3 => [tSTATE, tDELTA, tREL, tHZN, tHK, tHELLO, tKEEP, tFAIL].contains typ
  | 4 => [tDELTA, tREL, tHZN, tHK, tFAIL, tKEEP, tHELLO, tTAKEN].contains typ
  | _ => false

/-- A frame in its turn is used, or discarded and counted where the role does not expect it. -/
def State.useFrame (s : State) (f : BFrame) : State :=
  if !expects s.role f.typ then s.count Reg.BCN_CRCERR else
  let s := if s.role = 2 ∧ f.typ = tSTATE then s.beginState else s
  if f.typ = tDELTA then s.onDelta f.ws
  else if f.typ = tREL then s.onRel f.cyc f.ws
  else if f.typ = tHZN then s.onHzn f.cyc f.ws
  else if f.typ = tHK then s.onHk f.cyc f.last f.ws
  else if f.typ = tSTATE then s.onState f.ws
  else if f.typ = tFAIL then s.onFail f.ws
  else if f.typ = tKEEP then s.onKeep f.ws
  else if f.typ = tHELLO then s.onHello f.ws
  else if f.typ = tSTATUS then s.onStatus f.ws
  else s.onTaken

/-! ### The order of frames (R375, R377) -/

/-- The frames that a record fills. -/
def BFrame.count (f : BFrame) : Nat := max 1 ((f.ws.length + 1023) / 1024)

/-- The next SEQ after a record. -/
def BFrame.after (f : BFrame) : Nat := (f.seq + f.count) % 65536

/-- Frames held ahead of a gap are used as the gap is filled; the first argument bounds their number. -/
def State.drainHeld (s : State) : Nat → State
  | 0 => s
  | n + 1 =>
    match s.bcn.held.find? fun f => s.bcn.expect = some f.seq with
    | none => s
    | some f =>
      let held := s.bcn.held.filter fun g => g.seq != f.seq
      let s := { s with bcn := { s.bcn with held := held, expect := some f.after, nak := !held.isEmpty } }
      (s.useFrame f).drainHeld n

/-- A held frame comes again. The primary sends every frame after ACKSEQ that it still has, in SEQ order, so one that does not follow
the last such frame begins what it sends, and the missing frame has left its buffer, unless something has been lost since. DESIGN CHOICE:
this is how the standby learns it. -/
def State.heldAgain (s : State) (f : BFrame) : State :=
  if !s.bcn.gapBad ∧ s.bcn.lastAgain ≠ some f.seq then s.diverge 4
  else { s with bcn := { s.bcn with gapBad := false, lastAgain := some f.after } }

/-- A good frame, or a whole record of frames, arrives. -/
def State.receive (s : State) (f : BFrame) : State :=
  if !s.bcn.rxlock || !s.inRun 10 then s else
  if s.role = 0 then s.count Reg.BCN_CRCERR else
  let s := { s with bcn := { s.bcn with lastRx := some s.clk.us } }
  let e := if s.role < 3 then f.seq else s.bcn.expect.getD f.seq
  let d := (f.seq + 65536 - e) % 65536
  if d = 0 then
    let s := { s with bcn := { s.bcn with expect := some f.after, gapBad := false, lastAgain := none } }
    (s.useFrame f).drainHeld s.bcn.held.length
  else if 32768 ≤ d then s
  else if s.role = 3 then s.roleTwo
  else if s.bcn.held.any fun g => g.seq == f.seq then s.heldAgain f
  else { s with bcn := { s.bcn with held := s.bcn.held ++ [f], nak := true } }

/-- A frame of the line has been lost (R375, R377). -/
def State.frameGap (s : State) : State := { s with bcn := { s.bcn with gapBad := true } }

/-! ### Resynchronisation, the primary's side (R387) -/

/-- The final phase is carried out: the standby is synchronised from the next cycle on. -/
def State.finishResync (s : State) : State :=
  let s := (s.sendFinal).stampBreak
  let s := s.setReg Reg.BCN_SYNCCYC (BitVec.ofNat 32 s.nextCyc)
  s.count Reg.BCN_RSYNCCNT

/-- The bulk phase is complete: every page of DB, SB and IB has been sent. -/
def State.bulkDone (s : State) : State :=
  if s.bcn.resync ≠ .bulk then s else
  let s := s.sendPages (rangeFrom 0x400 0x2C0)
  { s with bcn := { s.bcn with resync := .converge, passSet := s.bcn.dirty, dirty := [], passes := 0 } }

/-- A resynchronisation fails: it is counted, and a new attempt begins after 1 s. DESIGN CHOICE: the count shows in no register, as R402
gives it none. -/
def State.resyncFails (s : State) : State :=
  { s with bcn := { s.bcn with
      resync := .none, passSet := [], dirty := [], retryAt := some (s.clk.us + 1000000), failed := s.bcn.failed + 1 } }

/-- A converge pass is complete. -/
def State.passDone (s : State) : State :=
  if s.bcn.resync ≠ .converge then s else
  let s := s.sendPages s.bcn.passSet
  let n := s.bcn.passes + 1
  if 4 * s.bcn.dirty.length ≤ s.f Reg.BCN_RSYNC 7 0 then
    let s := { s with bcn := { s.bcn with resync := .final, passSet := [] } }
    if s.scn.mode = .stop then s.finishResync else s
  else if s.f Reg.BCN_RSYNC 11 8 ≤ n then s.resyncFails
  else { s with bcn := { s.bcn with passes := n, passSet := s.bcn.dirty, dirty := [] } }

end Sys2Proof.Machine
end

