-- ==== Sys2Proof/Machine/Scan.lean ====
section
/-! DEFINITION. The rows of the scan cycle: the start of a cycle, the end of each transfer, housekeeping (R271 to R277),
and the cycle watchdog with the cycle warning (R287, R288). -/

namespace Sys2Proof.Machine

abbrev ScanOut := Host.Outcome State Fault Refusal

/-! ### CYCLE_START (R271, R276) -/

/-- The next cycle may start: the pad runs in RUN, no change to STOP waits, and the Chain admits it (R276). -/
def State.padEnds (s : State) : Bool :=
  decide (s.scn.mode = .run) && decide (s.scn.phase = .pad) && s.chainReady

/-- The next cycle starts: not before SCN_PAD.MIN has passed. A standby starts it where its primary's record lets it
(R380); a block whose required domain has left RUN enters STOP (R24). -/
def execCycleStart (s : State) : ScanOut :=
  .next (if s.follows then s.standbyStart
    else if !s.padEnds then s
    else if s.scn.domStop then s.stopNow 2
    else (s.carry (s.scn.tstart + s.scn.padMin)).startCycle false)

/-! ### INPUT_TRANSFER_END (R271, R272) -/

/-- Frames and S words that waited for the bank are delivered (R272, R319), and a debugger's access that has stalled is made (R19). -/
def State.bankFree (s : State) : State := (((List.range 8).foldl State.heldBurst s).writeDue).dbgRetry

/-- The input transfer ends: the program phase starts. The releases are applied at an instruction boundary, and wait for it while a
load of the running context holds (R194). -/
def execInputTransferEnd (s : State) : ScanOut :=
  .next (if s.scn.phase ≠ .input ∨ s.scn.mode ≠ .run then s else
    let s := s.setPhase .program
    let s := { s with scn := { s.scn with progFrom := s.clk.us } }
    let s := s.bankFree
    let s := if s.core.held.isSome then { s with scn := { s.scn with directDue := true } } else s.deliver
    let s := if s.replicates then s.sendRecord tDELTA true true s.deltaWords else s
    if s.scn.directDue then s else ((s.directReleases).takeHold).programEnd)

/-! ### OUTPUT_TRANSFER_END (R274, R275) -/

/-- A force change as a command of the housekeeping record (R383). -/
def ForceOp.cmd : ForceOp → Nat × Word
  | .set p v => (0x18, BitVec.ofNat 32 (p + v.toNat * 2 ^ 24))
  | .clear p => (0x19, BitVec.ofNat 32 p)
  | .clearAll => (0x19, 0x80000000)

/-- H1: the staged force changes are applied (R275, R285). -/
def State.h1 (s : State) : State :=
  let s := s.scn.staged.foldl (fun (s : State) x => s.tellCmd x.cmd.1 1 [x.cmd.2]) s
  let s := s.engineForces
  { s with scn := { s.scn with h1Done := true } }

/-- The output transfer of a block that decides for itself (R274), an entry to STOP that waited for it, and H1. -/
def State.ownOutput (s : State) : State :=
  let before := s.shOut
  let s : State := if s.replicates then { s with bcn := { s.bcn with sig := s.signature, sigCyc := s.scn.cyc } } else s
  let s := (s.transfer true (List.range 4096) s.scn.xferT).tellOutput s.bcn.sig before
  let s := (s.setPhase .housekeeping).bankFree
  let s : State := { s with scn := { s.scn with outCyc := s.scn.cyc } }
  match s.scn.stopXfer with
  | some cause => s.stopNow cause
  | none => s.h1

/-- A standby follows the record of its cycle: always while it follows, and with the whole record while it completes a
takeover (R384, R390). -/
def State.followed (s : State) : Option HkRec :=
  if s.follows then s.hkRec
  else if s.bcn.taking then s.hkRec.filter fun r => r.closed
  else none

/-- The output transfer ends. A takeover whose record does not fit goes on with its own governor. -/
def execOutputTransferEnd (s : State) : ScanOut :=
  .next (if s.scn.phase ≠ .output ∨ s.scn.mode ≠ .run ∨ !s.inRun 7 then s else
    match s.followed with
    | some r =>
      let t := (s.followOutput r)
      if t.scn.phase = .output ∧ t.bcn.taking then s.ownOutput else t.bankFree
    | none => if s.follows then s else s.ownOutput)

/-! ### HOUSEKEEPING_SLOT (R275) -/

/-- H3: the state that other members see, S words 128 to 137, and the first part of the record (R383, R396, R398). -/
def State.h3 (s : State) : State :=
  let s : State := if s.role = 1 ∧ !s.partnerSeen then { s with bcn := { s.bcn with sync := false } } else s
  let s := if s.role = 1 ∧ s.bcn.resync = .final then s.finishResync else s
  let s := (s.chainExchange).pairStatus
  if !s.replicates then s else
  let s := s.sendRecord tHK true false (s.bcn.items.flatMap HkItem.words)
  { s with bcn := { s.bcn with items := [], hkFirst := true } }

/-- The block enters STOP where context 0, enabled before, is halted after the switch (R187). -/
def State.ctx0Stop (s : State) : State :=
  if bit (s.cdCtrl 0) 4 && decide ((s.ctx 0).st = .halted) && decide (s.scn.mode = .run) then s.stopNow 11 else s

/-- H5: constants, then a pending handover, refused where it has waited too long (R275, R356, R357). -/
def State.h5 (s : State) : State :=
  let s := (s.drainAll).applyConsts
  if s.commitOverdue then s.commitTimesOut
  else if s.olc.commit.isSome ∧ s.commitIdle then (s.runCommit).ctx0Stop
  else s

/-- H6: a requested STOP, or the STOP that a lost domain asks for (R24, R282). -/
def State.h6 (s : State) : State :=
  if s.scn.mode ≠ .run then s
  else if s.scn.stopReq then (s.tellCmd 0x03 6 [0]).stopNow 0
  else if s.scn.domStop then s.stopNow 2
  else s

/-- The closing frame of the record, the handoff, and the end of housekeeping. A cycle that ends with it is closed with MARK 2; the
others have their pad yet (R276, R382, R383, R400). -/
def State.closeCycle (s : State) : State :=
  let s := if s.bcn.hkFirst ∧ s.replicates then
    s.sendRecord tHK false true ((s.bcn.items.flatMap HkItem.words) ++ HkItem.words ⟨10, []⟩) else s
  let s : State := { s with bcn := { s.bcn with items := [], hkFirst := false } }
  let handoff := s.bcn.handoff && decide (s.role = 1)
  let s := if s.scn.mode ≠ .run ∨ handoff then s.sendHzn 2 else s
  let s := if handoff then s.failTwo 0x80 else s
  let s : State := { s with scn := { s.scn with hkEnd := s.clk.us, h1Done := false } }
  if s.scn.mode = .run then s.setPhase .pad else s

/-- Housekeeping of a block that decides for itself. -/
def State.ownHousekeeping (s : State) : State :=
  let s := (s.h2).tellStations
  let s := (s.wdtRestart).h3
  ((s.h5).h6).closeCycle

/-- Lantern's vector 5 entry, once H1 has passed and no context waits for the core (R275). A standby waits for the whole record. -/
def execHousekeepingSlot (s : State) : ScanOut :=
  .next (if !s.housekeepingDue ∨ s.mcheckDue then s else
    match s.followed with
    | some r => if r.closed then
        let t := (s.traceLantern 5).wdtRestart.followHousekeeping r
        if t.scn.phase = .housekeeping ∧ t.bcn.taking then t.ownHousekeeping else t
      else s
    | none => if s.follows then s else (s.traceLantern 5).ownHousekeeping)

/-! ### The cycle watchdog and the warning (R287, R288) -/

/-- The cycle's watchdog counts: RUN, from the input transfer to the end of the program phase. -/
def State.wdCounts (s : State) : Bool :=
  decide (s.scn.mode = .run) && decide (s.core.halt ≠ .debug)
    && (decide (s.scn.phase = .input) || decide (s.scn.phase = .program))

/-- The cycle watchdog expires: source 112, class 12, and vector 16 in an activation of context 0 that has not ended. -/
def execCycleWatchdogExpiry (s : State) : ScanOut :=
  .next (if !s.wdCounts || s.scn.wdExp.isSome || s.follows then s else
    let s := s.carry (s.scn.wdFrom + 1000 * fld s.scn.wdog 15 0)
    let s : State := { s with scn := { s.scn with wdExp := some s.clk.us } }
    let s := (s.fire 112).count Reg.SCN_WDCNT
    let s := if (s.ctx 0).st = .ready then s.updCtx 0 fun c => { c with vec16 := true } else s
    let s := s.classify 12 0
    if s.coreRuns then s.takePending else s)

/-- The program phase has not ended GRACE ms after the expiry: STOP at once, cause 4 (R287). -/
def execWatchdogGraceExpiry (s : State) : ScanOut :=
  .next (match s.scn.wdExp with
    | none => s
    | some t => if !s.wdCounts || s.follows then s else
      (s.carry (t + 1000 * fld s.scn.wdog 31 16)).stopNow 4)

/-- A cycle's elapsed time reaches SCN_CYCWARN.LIMIT: source 113, and the next cycle's S word 0 reports it late. -/
def execCycleWarning (s : State) : ScanOut :=
  .next (if s.scn.mode ≠ .run ∨ s.scn.phase = .idle ∨ s.scn.cycwarn = 0 ∨ s.scn.warned then s else
    let s := (s.carry (s.scn.tstart + s.scn.cycwarn)).fire 113
    let s := s.count Reg.SCN_LATECNT
    { s with scn := { s.scn with warned := true } })

end Sys2Proof.Machine
end

