-- ==== Sys2Proof/Machine/Microcode.lean ====
section
/-! DEFINITION. The control store at work: OEM instructions, run microword by microword from the stores (R232 to R247),
the machine check that Lantern serves (R228, R249), and the parity scrub (R252). -/

namespace Sys2Proof.Machine

/-! ### Words of the stores (R232, R239, R240) -/

/-- The field [hi:lo] of a number. -/
def nfld (x hi lo : Nat) : Nat := x / 2 ^ lo % 2 ^ (hi + 1 - lo)

/-- SEQ, COND and TARGET of a microword. -/
def seqOf (w : Nat) : Nat := nfld w 17 14
def condOf (w : Nat) : Nat := nfld w 13 12
def targetOf (w : Nat) : Nat := nfld w 11 0

/-- A field of which values above `top` are reserved and act as 0 (R241). -/
def ufield (x hi lo top : Nat) : Nat := if nfld x hi lo ≤ top then nfld x hi lo else 0

/-- The fields of a nanoword. -/
def nOp (x : Nat) : Nat := ufield x 12 8 26
def nFlags (x : Nat) : Nat := ufield x 15 13 6
def nDst (x : Nat) : Nat := nfld x 20 17
def nRstk (x : Nat) : Nat := ufield x 26 25 2
def nAcc (x : Nat) : Nat := ufield x 30 27 14
def nLogic (x : Nat) : Nat := ufield x 35 31 26
def nFpu (x : Nat) : Nat := ufield x 40 36 20
def nTest (x : Nat) : Nat := nfld x 51 47
def nMem (x : Nat) : Nat := ufield x 67 64 12
def nSeg (x : Nat) : Nat := ufield x 71 68 10
def nStep (x : Nat) : Nat := ufield x 77 74 3

/-- ODEPTH: the change of the operand stack's depth, −8 to 7. -/
def nDepth (x : Nat) : Int := if nfld x 24 21 < 8 then nfld x 24 21 else (nfld x 24 21 : Int) - 16

/-- CONST, sign-extended. -/
def nConst (x : Nat) : Word := sext 6 (nfld x 46 41)

/-! ### A routine under way (R242, R243) -/

/-- An OEM routine under way: the state with its staged effects, the state as last committed, the microword to execute,
the registers of R242, the memory offset and data registers, the safe points it has passed, and a PC that it has set. -/
structure Mic where
  st : State
  base : State
  addr : Nat
  ret : Nat := 0
  t : List Word := [0, 0, 0, 0]
  lc : Word := 0
  step : Nat := 0
  off : Word
  wr : Word
  rd : Word
  safes : Nat := 0
  jump : Option Word := none

/-- What a microword's datapath makes: the result, its exact value, and carry and overflow where a rule gives them. -/
structure Alu where
  r : Word
  exact : Int
  c : Option Bool := none
  v : Option Bool := none

/-- The operations of OP on A and B (R239); `cin` is the C flag. -/
def aluOp (op : Nat) (cin : Bool) (a b : Word) : Alu :=
  let plain (r : Word) : Alu := { r := r, exact := r.toInt }
  let sum (k : Bool) : Alu :=
    let x := addFlags 0 a b k
    { r := x.1, exact := a.toInt + b.toInt + k.toNat, c := some (bit x.2 swC), v := some (bit x.2 swV) }
  let diff (k : Bool) : Alu :=
    let x := subFlags 0 a b k
    { r := x.1, exact := a.toInt - b.toInt - (!k).toNat, c := some (bit x.2 swC), v := some (bit x.2 swV) }
  let shift (f : Word → Nat → Word × Bool) : Alu :=
    if b = 0 then { r := a, exact := a.toInt, c := some cin }
    else { r := (f a b.toNat).1, exact := (f a b.toNat).1.toInt, c := some (f a b.toNat).2 }
  match op with
  | 0 => plain a
  | 1 => sum false
  | 2 => diff true
  | 3 => sum cin
  | 4 => diff cin
  | 5 => plain (a &&& b)
  | 6 => plain (a ||| b)
  | 7 => plain (a ^^^ b)
  | 8 => plain (~~~a)
  | 9 => shift shlRes
  | 10 => shift shrRes
  | 11 => shift sarRes
  | 12 =>
    let x := rorFlags 0 a b.toNat
    { r := x.1, exact := x.1.toInt, c := some (if b.toNat % 32 = 0 then cin else bit x.1 31) }
  | 13 => { r := a * b, exact := sprod a b, v := some (!fitsS32 (sprod a b)) }
  | 14 =>
    let r := BitVec.ofInt 32 (Int.fdiv (sprod a b) (2 ^ 32))
    { r := r, exact := r.toInt, v := some (!fitsS32 (sprod a b)) }
  | 15 =>
    let r := BitVec.ofNat 32 (uprod a b / 2 ^ 32)
    { r := r, exact := r.toInt, v := some (decide (2 ^ 32 ≤ uprod a b)) }
  | 16 => plain (Config.divideStep true a b)
  | 17 => plain (Config.divideStep false a b)
  | 18 => plain (BitVec.ofNat 32 (clz a))
  | 19 => plain (if a.slt b then a else b)
  | 20 => plain (if a.slt b then b else a)
  | 21 => plain (sext 8 a.toNat)
  | 22 => plain (sext 16 a.toNat)
  | 23 => plain (a &&& 0xFF)
  | 24 => plain (a &&& 0xFFFF)
  | 25 => plain ((a <<< 15) ||| (b &&& 0x7FFF))
  | _ => plain b

/-- The flags of a class (R111) for a result r, clamped or not; a minimum or maximum compares (R137), and a divide that clamps sets
S (R114). Where no rule gives C or V for the operation, they are open. -/
def classFlags (cls op : Nat) (sw a b : Word) (x : Alu) (r : Word) (clamped : Bool) : Word :=
  let c := x.c.getD (Config.oemFlag op cls a b)
  let v := x.v.getD (Config.oemFlag op (cls + 8) a b)
  match cls with
  | 0 => sw
  | 1 => if op = 19 ∨ op = 20 then (subFlags sw a b true).2 else setCZNV sw c r v
  | 2 => stick (setCZNV sw c r false) swS clamped
  | 3 => setZN sw r
  | 4 => setBit (setZN sw r) swC c
  | 5 => setBit (setZN sw r) swV v
  | _ => stick (setBit (setZN sw r) swV v) swS clamped

/-! ### The datapath of one microword -/

/-- A source (R239): entries of the operand cache stand there once `need` has filled it. -/
def Mic.src (m : Mic) (n k x sel : Nat) : Word :=
  let c := m.st.ctx n
  match sel with
  | 0 => 0
  | 1 => c.top 0
  | 2 => c.top 1
  | 3 => c.top 2
  | 8 => c.acc.setWidth 32
  | 9 => (c.acc.extractLsb' 32 8).signExtend 32
  | 10 => c.sw
  | 11 => BitVec.ofNat 32 (c.iwn * 256)
  | 12 => m.rd
  | 13 => BitVec.ofNat 32 (0x0F00 + k)
  | 14 => nConst x
  | 15 => m.lc
  | i => m.t.getD (i - 4) 0

/-- Entries of the operand stack that a source reads. -/
def srcDepth (sel : Nat) : Nat := if sel ≤ 3 then sel else 0

/-- The operand stack holds k entries, where any are needed. -/
def State.needSome (s : State) (n k : Nat) : Except Trap State := if k = 0 then .ok s else s.need n k

/-- The image word that the offset register addresses (R109), within reach; a write is refused in the I and S areas. -/
def State.oemImage (s : State) (writes : Bool) (off : Word) : Except Trap (Nat × State) :=
  match vectorWord off with
  | .error t => .error t
  | .ok w => match (if writes then writableWord w else .ok ()) with
    | .error t => .error t
    | .ok _ => match s.imageReady w with
      | .error t => .error t
      | .ok s => .ok (w, s.note (imgAddr w) 8 writes (lo32 (s.img w)))

/-- The bytes of a load or store of MEM. -/
def memSize (mem : Nat) : Nat := if mem = 1 ∨ mem = 6 then 4 else if mem ≤ 3 ∨ mem = 7 then 2 else 1

/-- A load without a segment (SEG 10), at the block physical address in the offset register; the image bank stalls while the engine holds
it (R19). -/
def State.physLoad (s : State) (a size : Nat) : Except Trap (Word × State) :=
  if regionOf a = .ib && s.imageHeld then .error stallTrap else
  match (s.drainAll).busLoad 15 a size with
  | .error t => .error t
  | .ok (v, s) => .ok (BitVec.ofNat 32 v, s.note a size false (BitVec.ofNat 32 v))

/-- An image word with its low `size` bytes replaced. -/
def lowBytes (size : Nat) (old : DWord) (v : Word) : DWord :=
  BitVec.ofNat 64 (old.toNat / 2 ^ (8 * size) * 2 ^ (8 * size) + v.toNat % 2 ^ (8 * size))

/-- An access to the image word w (R149, R240): what it reads, if anything, and what the word becomes, if it is written. DESIGN
CHOICE: under SEG 9 a word, half or byte is the low part of the image word, extended or replaced as MEM says. MEM 12 sets or
clears by a mask. -/
def imageAccess (x mem : Nat) (wr : Word) (old : DWord) : Option Word × Option DWord :=
  if mem ≤ 5 then (some (extend (memSize mem) (decide (mem = 2) || decide (mem = 4)) (old.toNat % 2 ^ (8 * memSize mem))), none)
  else if mem ≤ 8 then (none, some (lowBytes (memSize mem) old wr))
  else if mem = 9 then (some (Config.oemImageRead old), some (Config.oemImageWrite wr old))
  else if mem = 10 then (some (Config.oemImageRead old), none)
  else if mem = 11 then (none, some (Config.oemImageWrite wr old))
  else (some (Config.oemImageRead old),
    some (if Config.oemImageClears x then old &&& ~~~Config.oemImageMask wr else old ||| Config.oemImageMask wr))

/-- The memory access of a microword with nanoword x: the data it reads, if any, and the state. The image is reached under SEG 9
or by MEM 10 to 12. DESIGN CHOICE: MEM 10 to 12 reach it whatever SEG holds. -/
def Mic.access (m : Mic) (n k x mem seg : Nat) : Except Trap (Option Word × State) :=
  let s := m.st
  let sel := if seg = 0 then k % 8 else seg - 1
  let size := memSize mem
  if mem = 0 then .ok (none, s)
  else if 10 ≤ mem ∨ seg = 9 then
    match s.oemImage (decide (6 ≤ mem) && decide (mem ≠ 10)) m.off with
    | .error t => .error t
    | .ok (w, s) => match imageAccess x mem m.wr (s.img w) with
      | (v, none) => .ok (v, s)
      | (v, some y) => .ok (v, s.imgWrite w y 0)
  else if mem ≤ 5 then
    match (if seg = 10 then s.physLoad m.off.toNat size else s.longRead n sel m.off size) with
    | .error t => .error t
    | .ok (v, s) => .ok (some (extend size (decide (mem = 2) || decide (mem = 4)) v.toNat), s)
  else if mem = 9 then
    if seg = 10 then
      match s.physLoad m.off.toNat 4 with
      | .error t => .error t
      | .ok (v, s) => .ok (some v, s.drainEntry ⟨m.off.toNat, 4, m.wr, some n⟩)
    else match s.exchange n sel m.off m.wr with
      | .error t => .error t
      | .ok (v, s) => .ok (some v, s)
  else if seg = 10 then
    if regionOf m.off.toNat = .ib && s.imageHeld then .error stallTrap else
    let v : Word := BitVec.ofNat 32 (m.wr.toNat % 2 ^ (8 * size))
    .ok (none, (s.note m.off.toNat size true v).pushStore ⟨m.off.toNat, size, v, some n⟩)
  else match s.longWrite n sel m.off m.wr size with
    | .error t => .error t
    | .ok s => .ok (none, s)

/-- A load from a register page has its side effects when it is issued (R245): they stand in the committed state too. -/
def Mic.readThrough (m : Mic) (n k mem seg : Nat) : State :=
  let sel := if seg = 0 then k % 8 else seg - 1
  let a := if seg = 10 then m.off.toNat else dBase ((m.st.ctx n).seg sel) + m.off.toNat
  if 1 ≤ mem ∧ mem ≤ 5 ∧ seg ≠ 9 ∧ regionOf a = .regs then
    match m.base.busLoad 15 a 4 with
    | .ok (_, s) => s
    | .error _ => m.base
  else m.base

/-- The accumulator field (R239): A, SW and, for the extractions and the Q1.31 product, the result. -/
def accField (acc k : Nat) (c : Ctx) (a b r : Word) : BitVec 40 × Word × Word :=
  let with2 (x : BitVec 40 × Word) : BitVec 40 × Word × Word := (x.1, x.2, r)
  let q := q31Product c.sw a b
  match acc with
  | 0 => (c.acc, c.sw, r)
  | 1 => (0, c.sw, r)
  | 2 => (r.signExtend 40, c.sw, r)
  | 3 => with2 (accWrap c.sw (c.acc.toInt + r.toInt))
  | 4 => with2 (accClamp c.sw (c.acc.toInt + r.toInt))
  | 5 => with2 (accWrap c.sw (c.acc.toInt + q))
  | 6 => with2 (accWrap c.sw (c.acc.toInt - q))
  | 7 => with2 (accClamp c.sw (c.acc.toInt + q))
  | 8 => with2 (accClamp c.sw (c.acc.toInt - q))
  | 9 => (c.acc, (extqFlags c.sw c.acc).2, (extqFlags c.sw c.acc).1)
  | 10 => (c.acc, (extqsFlags c.sw c.acc).2, (extqsFlags c.sw c.acc).1)
  | 11 => (c.acc, (extiFlags c.sw c.acc).2, (extiFlags c.sw c.acc).1)
  | 12 => with2 (BitVec.ofInt 40 (roundShift (rmOf c.sw) c.acc.toInt (k % 64)), c.sw)
  | 13 => with2 (accClamp c.sw (c.acc.toInt * 2 ^ (k % 64)))
  | _ => (c.acc, (qmulFlags c.sw a b).2, (qmulFlags c.sw a b).1)

/-- The logic field (R239) for a result r. -/
def State.logicField (s : State) (n k lg : Nat) (r : Word) : Except Trap (Word × State) :=
  let onCtx (f : Ctx → Except Trap Ctx) : Except Trap (Word × State) :=
    match f (s.ctx n) with
    | .error t => .error t
    | .ok c => .ok (r, s.setCtx n c)
  if lg = 0 then .ok (r, s)
  else if lg ≤ 16 then
    match s.bitAt (lg - 1) (BitVec.ofNat 8 k) n with
    | .error t => .error t
    | .ok s => .ok (r, s)
  else match lg with
    | 17 => onCtx Ctx.lpush
    | 18 => onCtx Ctx.lpop
    | 19 => onCtx (Ctx.lcombine and)
    | 20 => onCtx (Ctx.lcombine or)
    | 21 => onCtx (Ctx.lcombine xor)
    | 22 => onCtx fun c => .ok { c with la := !c.la }
    | 23 => onCtx fun c => .ok { c with la := true }
    | 24 => onCtx fun c => .ok { c with la := false }
    | 25 => onCtx fun c => .ok { c with la := decide (r ≠ 0) }
    | _ => .ok (truth (s.ctx n).la, s)

/-- The return-stack field: push the result, or pop into T3. -/
def Mic.rstkField (m : Mic) (n f : Nat) (r : Word) : Except Trap Mic :=
  match f with
  | 1 => match m.st.rpush n r with
    | .error t => .error t
    | .ok s => .ok { m with st := s }
  | 2 => match m.st.rpop n with
    | .error t => .error t
    | .ok (v, s) => .ok { m with st := s, t := m.t.set 3 v }
  | _ => .ok m

/-- Push k entries of open content. -/
def State.pushOpen (s : State) (n : Nat) : Nat → Except Trap State
  | 0 => .ok s
  | k + 1 => match (s.tickFree).push n (Config.freeWord s.free) with
    | .error t => .error t
    | .ok s => s.pushOpen n k

/-- The change of the operand stack's depth: entries go, or come with open content. -/
def State.changeDepth (s : State) (n : Nat) (d : Int) : Except Trap State :=
  if d < 0 then
    match s.popN n (-d).toNat with
    | .error t => .error t
    | .ok (_, s) => .ok s
  else s.pushOpen n d.toNat

/-- Replace entry i of the operand stack: a loaded value on its way to its slot is discarded (R140). -/
def State.replaceEntry (s : State) (n i : Nat) (v : Word) : Except Trap State :=
  match s.need n (i + 1) with
  | .error t => .error t
  | .ok s => .ok (s.updCtx n fun c => { c with
      oc := c.oc.set i v, landing := c.landing.filter fun l => decide (l.1 ≠ c.depth - 1 - i) })

/-- The destination of the result (R239): SW as R95 writes it, IW as R107 does. -/
def Mic.store (m : Mic) (n dst : Nat) (r : Word) : Except Trap Mic :=
  let onSt (x : Except Trap State) : Except Trap Mic :=
    match x with
    | .error t => .error t
    | .ok s => .ok { m with st := s }
  match dst with
  | 0 => .ok m
  | 1 => onSt (m.st.push n r)
  | 2 => onSt (m.st.replaceEntry n 0 r)
  | 3 => onSt (m.st.replaceEntry n 1 r)
  | 8 => .ok { m with st := m.st.updCtx n fun c => { c with acc := (c.acc.extractLsb' 32 8) ++ r } }
  | 9 => .ok { m with st := m.st.updCtx n fun c => { c with acc := (r.setWidth 8) ++ (c.acc.setWidth 32) } }
  | 10 =>
    if swWriteDenied (m.st.k4 n) (m.st.ctx n).sw r then .error ⟨13, 1, 15, false, none, none⟩
    else .ok { m with st := m.st.updCtx n fun c => { c with sw := swWritten (m.st.k4 n) c.sw r } }
  | 11 =>
    if r.toNat % 256 ≠ 0 then .error ⟨4, 0, 15, false, none, none⟩
    else if 0x110000 ≤ r.toNat then .error ⟨2, 2, 15, false, none, none⟩
    else .ok { m with st := m.st.updCtx n fun c => { c with iwn := r.toNat / 256 } }
  | 12 => .ok { m with wr := r }
  | 13 => .ok { m with off := r }
  | 14 => .ok { m with jump := some (r &&& 0xFFFFFFFE) }
  | 15 => .ok { m with lc := r }
  | i => .ok { m with t := m.t.set (i - 4) r }

/-- LDRES: the data that the step has read and put on the stack becomes a load-class result (R140): its slot keeps the old
content for the next instruction. -/
def Mic.loadResult (m : Mic) (n : Nat) (before : Ctx) (r : Word) : Mic :=
  if m.st.k4 n then m else
  { m with st := m.st.updCtx n fun c =>
      let old := before.oc.getD (before.depth - c.depth) (Config.freeWord m.st.free)
      { c with oc := old :: c.oc.drop 1, load := some (c.depth - 1, r) } }

/-- What TEST tells (R239), on the state that the nanoword leaves. -/
def Mic.test (m : Mic) (n k t : Nat) (r : Word) (cout : Bool) (w : Word) : Bool :=
  let c := m.st.ctx n
  match t with
  | 0 => decide (r = 0)
  | 1 => bit r 31
  | 2 => cout
  | 3 => c.la
  | 4 => condHolds (fld w 13 10) c.sw c.la
  | 5 => decide (c.top 0 = 0)
  | 6 => decide (fld c.prog 31 30 = 1) && decide (fld c.prog 15 0 = 0x0F00 + k)
  | 7 => decide (m.lc = 0)
  | _ => false

/-- Everything behind the sources: the fields act on result r in their order. -/
def Mic.fields (m : Mic) (n k x : Nat) (before : Ctx) (a b r : Word) : Except Trap (Word × Mic) :=
  let (acc, sw, r) := accField (nAcc x) k (m.st.ctx n) a b r
  let s := m.st.updCtx n fun c => { c with acc := acc, sw := sw }
  match s.logicField n k (nLogic x) r with
  | .error t => .error t
  | .ok (r, s) => match (if nFpu x = 0 then .ok s else s.fpDo (nFpu x) n) with
    | .error t => .error t
    | .ok s => match ({ m with st := s } : Mic).rstkField n (nRstk x) r with
      | .error t => .error t
      | .ok m => match m.st.changeDepth n (nDepth x) with
        | .error t => .error t
        | .ok s => match ({ m with st := s } : Mic).store n (nDst x) r with
          | .error t => .error t
          | .ok m =>
            let m := if nfld x 78 78 = 1 ∧ (nDst x = 1 ∨ nDst x = 2) then m.loadResult n before r else m
            let step := match nStep x with
              | 1 => 0
              | 2 => (m.step + 1) % 2 ^ 14
              | 3 => (nConst x).toNat % 2 ^ 14
              | _ => m.step
            .ok (r, { m with step := step })

/-- Apply nanoword x in a routine of code 0x0F00 + k: privilege, the memory access with the registers as they stood, the
sources, the operation and the fields. The answer carries TEST. -/
def Mic.word (m : Mic) (n k x : Nat) : Except Trap (Bool × Mic) :=
  if nfld x 73 73 = 1 && !bit (m.st.ctx n).sw swPRV then .error ⟨13, 0, 15, false, none, none⟩ else
  match m.access n k x (nMem x) (nSeg x) with
  | .error t => .error t
  | .ok (v, s) =>
    let m := { m with st := s, base := m.readThrough n k (nMem x) (nSeg x), rd := v.getD m.rd }
    let sa := nfld x 3 0
    let sb := nfld x 7 4
    match m.st.needSome n (max (srcDepth sa) (srcDepth sb)) with
    | .error t => .error t
    | .ok s =>
      let m := { m with st := s }
      let c := m.st.ctx n
      let a := m.src n k x sa
      let b := m.src n k x sb
      let al := aluOp (nOp x) (bit c.sw swC) a b
      let sat := decide (nfld x 16 16 = 1)
      let r := if sat then clamp32 al.exact else al.r
      let sw := classFlags (nFlags x) (nOp x) c.sw a b al r (sat && !fitsS32 al.exact)
      let m := { m with st := m.st.updCtx n fun c => { c with sw := sw } }
      match m.fields n k x c a b r with
      | .error t => .error t
      | .ok (r, m) => match m.st.needSome n (if nTest x = 5 then 1 else 0) with
        | .error t => .error t
        | .ok s =>
        let m : Mic := { m with st := s }
        .ok (m.test n k (nTest x) r (al.c.getD (Config.oemFlag (nOp x) 16 a b)) (BitVec.ofNat 32 (0x0F00 + k)), m)

/-! ### Sequencing (R234, R235, R244) -/

/-- How a routine ends. -/
inductive MicEnd where
  | done
  | fault (t : Trap)
  | suspended
  | abandoned (s : State)
  | instead (s : State)
  | stalled

/-- The source of the four bits that DISPATCH replaces. -/
def Mic.dispatchBits (m : Mic) (k c : Nat) : Nat :=
  match c with
  | 0 => k % 16
  | 1 => k / 16 % 16
  | 2 => m.step % 16
  | _ => 0xF

/-- A safe point: the stretch since the last commit point meets the comparators, its staged effects commit, PROG is set, and the
registers of R242 are cleared; then the sequencer polls. `stop` names the safe point at which something comes from outside. The stretch
waits where a buffered store that had to drain for it stalls (R19). -/
def Mic.commit (m : Mic) (n k : Nat) (stop : Option Nat) : Mic × Option MicEnd :=
  if m.base.drainStalls m.st then (m, some .stalled) else
  match m.base.judge n (m.st.updCtx n fun c => { c with prog := progWord (0x0F00 + k) m.step }) with
  | .instead s => (m, some (.instead s))
  | .goes s =>
    let m := { m with st := s, base := s, ret := 0, t := [0, 0, 0, 0], lc := 0, safes := m.safes + 1 }
    (m, if stop = some m.safes ∨ s.entryWaits n ∨ (s.ctx n).dueVector.isSome then some .suspended else none)

/-- What the sequencing operation of microword w does next: the routine goes on, or ends. -/
def Mic.sequence (m : Mic) (n k : Nat) (stop : Option Nat) (w : Nat) (t : Bool) : Mic × Option MicEnd :=
  let cond := match condOf w with
    | 1 => t
    | 2 => !t
    | _ => true
  let next := (m.addr + 1) % 4096
  let tgt := targetOf w
  match seqOf w with
  | 0 => ({ m with addr := next }, none)
  | 1 => ({ m with addr := if cond then tgt else next }, none)
  | 2 => ({ m with addr := tgt / 16 * 16 + m.dispatchBits k (condOf w) }, none)
  | 3 => ({ m with lc := m.lc - 1, addr := if cond && decide (m.lc ≠ 1) then tgt else next }, none)
  | 4 => ({ m with ret := next, addr := tgt }, none)
  | 5 => ({ m with addr := m.ret }, none)
  | 6 => { m with addr := if cond then tgt else next }.commit n k stop
  | 7 => (m, some .done)
  | 8 => (m, some (.fault ⟨tgt % 32, tgt / 32 % 16, 15, false, none, none⟩))
  | _ => (m, some (.fault ⟨1, 0, 15, false, none, none⟩))

/-- Run microwords until the routine ends, `fuel` of them at most. A repair that a word needs (R250) stands in the staged and in the
committed state alike. -/
def micLoop (n k : Nat) (stop : Option Nat) : Nat → Mic → Mic × MicEnd
  | 0, m => (m, .stalled)
  | fuel + 1, m =>
    let base := (({ m.base with free := m.st.free } : State).wordsGood n m.addr).2
    match m.st.wordsGood n m.addr with
    | (false, _) => (m, .abandoned base)
    | (true, s) =>
      let m := { m with st := s, base := base }
      match m.word n k (s.nano (s.nanoOf m.addr)) with
      | .error t => (m, if t = stallTrap then .stalled else .fault t)
      | .ok (t, m') => match m'.sequence n k stop (s.micro m.addr) t with
        | (m, some e) => (m, e)
        | (m, none) => micLoop n k stop fuel m

/-! ### OEM instructions (R157, R246) -/

/-- The microwords that may follow microword w at address a; with COND 0 and 3 a BRANCH or SAFE takes its target always (R235). -/
def succs (a w : Nat) : List Nat :=
  let next := (a + 1) % 4096
  let taken := if condOf w = 0 ∨ condOf w = 3 then [targetOf w] else [targetOf w, next]
  match seqOf w with
  | 0 => [next]
  | 2 => rangeFrom (targetOf w / 16 * 16) 16
  | 5 => []
  | 7 => []
  | 1 => taken
  | 3 => [targetOf w, next]
  | 4 => [targetOf w, next]
  | 6 => taken
  | _ => []

/-- The addresses that a routine can reach, from a list of them on. -/
def State.reach (s : State) : Nat → List Nat → List Nat → List Nat
  | 0, _, seen => seen
  | _, [], seen => seen
  | fuel + 1, a :: todo, seen =>
    if seen.contains a then s.reach fuel todo seen
    else s.reach fuel (succs a (s.micro a) ++ todo) (a :: seen)

/-- An OEM instruction whose routine uses the FPU field counts as an FP instruction (R246). -/
def State.oemUsesFp (s : State) (k : Nat) : Bool :=
  (s.reach 70000 [3584 + k] []).any fun a => decide (nFpu (s.nano (s.nanoOf a)) ≠ 0)

/-- The routine at its dispatch (R242). -/
def State.oemStart (s : State) (n k : Nat) : Mic :=
  let c := (s.ctx n).begin true
  let resumes := decide (fld c.prog 31 30 = 1) && decide (fld c.prog 15 0 = 0x0F00 + k)
  { st := ((s.setCtx n c).tickFree).tickFree, base := s, addr := 3584 + k
    step := if resumes then fld c.prog 29 16 else 0
    off := Config.freeWord s.free, wr := Config.freeWord (s.free + 1), rd := Config.freeWord (s.free + 2) }

/-- The context after END: at the place that the routine set, or at the next instruction. -/
def Mic.ended (m : Mic) (n : Nat) : State :=
  m.st.updCtx n fun c => match m.jump with
    | none => { c with prog := 0 }.advance
    | some p => { c with prog := 0, pc := p, slot := .none }

/-- OEM code 0x0F00 + k: its routine runs from its entry word. `stop` is the safe point at which something interrupts it,
the first being 1; without it the routine runs to its end. -/
def State.runOem (s : State) (k : Nat) (stop : Option Nat) : State :=
  let long := bit s.mcs.long k
  let fp := s.oemUsesFp k
  match s.issue { code := 0x0F00 + k, noSlot := long, noLock := long || (fp && !s.fpaNow), long := true } with
  | .idle => s
  | .fault n s' t => s.faultFrom s' n t
  | .abandon s' => s'
  | .go n s' =>
    match (if fp && !bit (s'.ctx n).sw swFPA then s'.fpGain n 4 else .ok s') with
    | .error (t, s1) => s.faultFrom s1 n t
    | .ok s1 =>
      if s.drainStalls s1 then s else
      let r := micLoop n k stop 65536 (s1.oemStart n k)
      let m := r.1
      let back := if m.safes = 0 then s else m.base.forget
      match r.2 with
      | .done => back.judgeRetire m.base n (m.ended n) (s1.ctx n).lkc
      | .fault t => back.faultFrom m.base.forget n t
      | .suspended => s.unlessDrained (m.base.settleLoad n).stepEnds.takePending
      | .instead t => s.unlessDrained t
      | .abandoned t => t.forget
      | .stalled => back

/-- An OEM instruction (R157). An entry word with the empty pattern raises vector 1, REASON 6, as it executes. -/
def execOemInstruction (k : BitVec 8) (stop : Option Nat) (s : State) : Out := .next (s.runOem k.toNat stop)

/-! ### Lantern's machine check entry (R222, R228, R249) -/

/-- Lantern reloads the word of the parity error that MCS_PERR shows. -/
def State.serveParity (s : State) (readBackOk : Bool) : State :=
  let p := s.reg Reg.MCS_PERR
  let nano := bit p 12
  let r := s.reload nano (fld p 11 0) readBackOk
  let s := (r.2.classify 0 0).logPut 0x0020 0x04
    ([BitVec.ofNat 8 nano.toNat, BitVec.ofNat 8 (fld p 14 13)] ++ toBytes (fld p 11 0) 2)
  s.afterReload nano (fld p 11 0) r.1

/-- Lantern serves every condition that is pending, condition 0 by the repair of R249. -/
def State.serveChecks (s : State) (readBackOk : Bool) : State :=
  let parity := s.f Reg.EXC_MCPEND 0 0 = 1
  let s := s.setReg Reg.EXC_MCPEND 0
  if parity then s.serveParity readBackOk else s

/-- Lantern's vector 1 (R222, R228). An entry while Lantern itself has the core waits for its GM to be 0, and pushes a frame onto the
Lantern stack, which its return pops. DESIGN CHOICE: the fault word of that frame, for which R222 gives no cause, has VEC 1, REASON 0,
LANT 1, CTX 0 and SEG 0xF. -/
def execMachineCheckEntry (readBackOk : Bool) (s : State) : Out :=
  .next (if !s.mcheckDue then s
    else if s.lanternBusy then
      let fw := faultWord 1 0 0 15 true false false
      match (s.tickFree).lanternPush (s.lanternFrame fw) fw with
      | (false, s) => s
      | (true, s) => ((s.lanternAt (lanternVector 1)).serveChecks readBackOk).lanternReturn
    else (s.traceLantern 1).serveChecks readBackOk)

/-! ### The scrub (R252) -/

/-- A word that the scrub finds bad: machine check 0, or the unit's own repair while one is pending. -/
def State.scrubWord (s : State) (nano : Bool) (i : Nat) : State :=
  let h := s.badAt nano i
  if h = 0 then s else
  let s := s.parityFound nano i h true
  if s.f Reg.EXC_MCPEND 0 0 = 0 then s.mcheck 0 none 0
  else
    let r := s.ownRepair nano i h
    r.2.afterReload nano i r.1

/-- While MCS_CTRL.SCRUB is 1, one microword and one nanoword are checked, in ascending order. -/
def execMcsScrub (s : State) : Out :=
  .next (if s.f Reg.MCS_CTRL 0 0 = 0 ∨ !s.serves 3 then s else
    let a := s.mcs.scrubMicro
    let b := s.mcs.scrubNano
    let s := (s.scrubWord false a).scrubWord true b
    { s with mcs := { s.mcs with scrubMicro := (a + 1) % 4096, scrubNano := (b + 1) % 1024 } })

end Sys2Proof.Machine
end

