-- ==== Sys2Proof/Machine/OemCheck.lean ====
section
/-! DEFINITION. The rules that S5 holds control-store patches to (R247): the format of words and attribute bytes, and the
path rules over the OEM region. -/

namespace Sys2Proof.Machine

/-! ### Format rules (reason 9) -/

/-- A microword has no reserved SEQ value, and ENDF's TARGET[11:9] are 0. -/
def microFormat (w : Nat) : Bool :=
  decide (seqOf w ≤ 8) && (decide (seqOf w ≠ 8) || decide (nfld w 11 9 = 0))

/-- A nanoword has no reserved field value or bit. -/
def nanoFormat (x : Nat) : Bool :=
  decide (nfld x 12 8 ≤ 26) && decide (nfld x 15 13 ≤ 6) && decide (nfld x 26 25 ≤ 2) && decide (nfld x 30 27 ≤ 14)
    && decide (nfld x 35 31 ≤ 26) && decide (nfld x 40 36 ≤ 20) && decide (nfld x 51 47 ≤ 7) && decide (nfld x 63 52 = 0)
    && decide (nfld x 67 64 ≤ 12) && decide (nfld x 71 68 ≤ 10) && decide (nfld x 77 74 ≤ 3) && decide (nfld x 127 79 = 0)

/-! ### Path rules (reason 10) -/

/-- An address of the OEM region. -/
def inOem (a : Nat) : Bool := decide (3584 ≤ a) && decide (a < 4096)

/-- A microword of the OEM region keeps its targets and its nanoword within it, and raises no vector but those allowed. -/
def oemMicroOk (w : Nat) : Bool :=
  let n := nfld w 27 18
  let v := targetOf w % 32
  (decide (n = 0) || decide (896 ≤ n))
    && match seqOf w with
      | 1 => inOem (targetOf w)
      | 2 => inOem (targetOf w)
      | 3 => inOem (targetOf w)
      | 4 => inOem (targetOf w)
      | 6 => inOem (targetOf w)
      | 8 => decide (1 ≤ v) && decide (v ≤ 13) && decide (v ≠ 11)
      | _ => true

/-- A nanoword of the OEM region addresses no physical memory, sets no PC and makes no load-class result. -/
def oemNanoOk (x : Nat) : Bool := decide (nSeg x ≠ 10) && decide (nDst x ≠ 14) && decide (nfld x 78 78 = 0)

/-- A nanoword issues a store. -/
def storesIn (x : Nat) : Nat := if (6 ≤ nMem x ∧ nMem x ≤ 9) ∨ 11 ≤ nMem x then 1 else 0

/-- A place on a path: the address, the return address of a call in progress, and the stores since the commit point. -/
structure PathNode where
  addr : Nat
  ret : Option Nat
  stores : Nat
  deriving DecidableEq, Repr

/-- The places after one microword, and the addresses after a safe point; none where a rule fails. COND 0 and 3 always take the target
(R235), but a loop counter still decides LOOP. DESIGN CHOICE: a RETM without a CALLM before it on the path, of which R247 has no row, fails
the check of CALLM and RETM. -/
def State.pathStep (s : State) (long : Bool) (p : PathNode) : Option (List PathNode × List Nat) :=
  let w := s.micro p.addr
  let st := p.stores + storesIn (s.nano (s.nanoOf p.addr))
  let go (l : List Nat) (r : Option Nat) : Option (List PathNode × List Nat) :=
    if l.all inOem then some (l.map fun a => ⟨a, r, st⟩, []) else none
  let both := if condOf w = 0 ∨ condOf w = 3 then [targetOf w] else [targetOf w, p.addr + 1]
  if !inOem p.addr || decide (8 < st) then none
  else match seqOf w with
    | 0 => go [p.addr + 1] p.ret
    | 1 => go both p.ret
    | 2 => go (rangeFrom (targetOf w / 16 * 16) 16) p.ret
    | 3 => go [targetOf w, p.addr + 1] p.ret
    | 4 => if p.ret.isSome then none else go [targetOf w] (some (p.addr + 1))
    | 5 => match p.ret with
      | some a => go [a] none
      | none => none
    | 6 => if p.ret.isSome || !long || !both.all inOem then none else some ([], both)
    | _ => some ([], [])

/-- Every path from these places reaches a commit point within `fuel` microwords: the addresses after safe points. -/
def State.stretch (s : State) (long : Bool) : Nat → List PathNode → Option (List Nat)
  | _, [] => some []
  | 0, _ :: _ => none
  | fuel + 1, nodes =>
    let r := nodes.map (s.pathStep long)
    if r.any Option.isNone then none
    else
      let next := (r.filterMap id).flatMap (·.1)
      match s.stretch long fuel next.eraseDups with
      | none => none
      | some l => some (((r.filterMap id).flatMap (·.2)) ++ l)

/-- Every stretch from these addresses on, and from the safe points they reach, keeps the bounds. -/
def State.stretches (s : State) (long : Bool) : Nat → List Nat → List Nat → Bool
  | _, [], _ => true
  | 0, _, _ => false
  | fuel + 1, a :: todo, seen =>
    if seen.contains a then s.stretches long fuel todo seen
    else match s.stretch long 16 [⟨a, none, 0⟩] with
      | none => false
      | some l => s.stretches long fuel (l ++ todo) (a :: seen)

/-- The OEM region keeps the path rules. -/
def State.pathRules (s : State) : Bool :=
  ((rangeFrom 3584 512).all fun i => oemMicroOk (s.micro i))
    && ((rangeFrom 896 128).all fun i => oemNanoOk (s.nano i))
    && (List.range 256).all fun k => s.stretches (bit (s.byte (0x730000 + k)) 0) 20000 [3584 + k] []

end Sys2Proof.Machine
end

