-- ==== Sys2Proof/Machine/Start.lean ====
section
/-! DEFINITION. The steps of the start sequence from S3 on (R62 to R79): the base control-store load, patches (R68 to R75),
the decision of R67, the bank test, the verification of the active generation, and the start mode. -/

namespace Sys2Proof.Machine

/-! ### S3: the base load (R66, R253) -/

/-- Microword i and nanoword i of the boot ROM; the OEM region holds the empty pattern (R238). -/
def romNum (off n : Nat) : Nat := ofBytes ((rangeFrom off n).map Config.romByte)
def romMicro (i : Nat) : Nat :=
  if 3584 ≤ i then emptyMicro
  else if (1821 ≤ i ∧ i ≤ 1823) ∨ (i < 1792 ∧ !assigned i) then unassignedMicro
  else romNum (0x1000 + 4 * i) 4 % 2 ^ 28
def romNano (i : Nat) : Nat := if 1 ≤ i ∧ i < 896 then romNum (0x5000 + 16 * i) 16 else 0

/-- The stores are loaded as the boot ROM gives them. -/
def State.loadStores (s : State) : State :=
  let s := { s with mcs := { s.mcs with bad := [] } }
  let s := (List.range 4096).foldl (fun (s : State) i => s.setMicro i (romMicro i)) s
  (List.range 1024).foldl (fun (s : State) i => s.setNano i (romNano i)) s

/-- The control-store image in KB follows the stores. -/
def State.copyImage (s : State) : State :=
  let s := s.overwrite 0x700000 ((List.range 4096).flatMap fun i => toBytes (s.micro i) 4)
  s.overwrite 0x704000 ((List.range 1024).flatMap fun i => toBytes (s.nano i) 16)

/-- The stores, the image and the Jenrax firmware region as at S3 (R66, R75): the base firmware, and 0 behind it, as the clear
of KB at S2 leaves it. -/
def State.baseLoad (s : State) : State :=
  let s := (s.loadStores.copyImage).clearBytes 0x708000 0x72FFFF
  s.overwrite 0x708000 ((rangeFrom 0x9000 0x7000).map Config.romByte)

/-- MCS_DIGEST is the digest of the control-store image. -/
def State.writeDigest (s : State) : State :=
  let d := bytesToWords (sha256 ((rangeFrom 0x700000 0x8000).map s.byte))
  (List.range 8).foldl (fun (s : State) i => s.setReg (Reg.MCS_DIGEST + 4 * i) (d.getD i 0)) s

/-! ### Blobs (R70 to R74) -/

/-- Where blob i is staged, and its bytes as Lantern reads them. -/
def stagingAddr (i : Nat) : Nat := 0x400000 + 0x3C000 * i
def State.blobBytes (s : State) (i len : Nat) : List Byte × State := s.lanternBytes (stagingAddr i) len

/-- The digest of a key slot, from the cache (R37). -/
def State.slotDigest (s : State) (n : Nat) : List Byte := (s.str.digests.drop (32 * n)).take 32

/-- Checks 2 to 4 of R71 over a public key, a signature and the bytes it covers: 0, or the reason of the failure. -/
def State.keyCheck (s : State) (slot : Nat) (pub sig msg : List Byte) : Nat :=
  let d := s.slotDigest slot
  if d.all (· == 0) then 5
  else if sha256 pub ≠ d then 6
  else if !ecdsaOk pub sig msg then 7
  else 0

/-- A record of a payload: its type, its first index or offset, and its data. -/
structure PatchRec where
  typ : Nat
  start : Nat
  count : Nat
  data : List Byte
  deriving DecidableEq, Repr

/-- The bytes of a record's data, and with its padding. -/
def recLen (typ count : Nat) : Nat := if typ = 1 then 4 * count else if typ = 2 then 16 * count else 8 * count
def recPadded (typ count : Nat) : Nat := (recLen typ count + 7) / 8 * 8

/-- The range of a record lies in the scope of its blob (R74). -/
def inScope (oem : Bool) (r : PatchRec) : Bool :=
  let e := r.start + (if r.typ = 3 then 8 * r.count else r.count)
  match r.typ with
  | 1 => decide ((if oem then 3584 else 0) ≤ r.start) && decide (e ≤ 4096)
  | 2 => decide ((if oem then 896 else 0) ≤ r.start) && decide (e ≤ 1024)
  | _ => decide ((if oem then 0x30000 else 0x8000) ≤ r.start) && decide (e ≤ 0x3C000)

/-- A record is well formed (R73): its padding, COUNT, START of its own type's range, and data. -/
def recOk (r : PatchRec) (pad : List Byte) : Bool :=
  pad.all (· == 0) && decide (1 ≤ r.count)
    && (decide (r.typ ≠ 1) || decide (r.start ≤ 4095)) && (decide (r.typ ≠ 2) || decide (r.start ≤ 1023))
    && (decide (r.typ ≠ 1) || (List.range r.count).all fun i => decide (word32 r.data (4 * i) < 2 ^ 28))
    && (decide (r.typ ≠ 3) || decide (r.start % 8 = 0))

/-- The records of a payload, or the reason for refusing them (R73, R74). -/
def patchRecs (oem : Bool) : Nat → List Byte → Except Nat (List PatchRec)
  | 0, _ => .error 9
  | fuel + 1, bs =>
    if bs.length < 8 then .error 9 else
    let w := word32 bs 0
    let typ := w % 256
    let count := w / 65536
    let start := word32 bs 4
    if w / 256 % 256 ≠ 0 ∨ 3 < typ then .error 9
    else if typ = 0 then
      if count = 0 ∧ start = 0 ∧ (bs.drop 8).all (· == 0) then .ok [] else .error 9
    else
      let n := recLen typ count
      let p := recPadded typ count
      if bs.length < 8 + p then .error 9 else
      let r : PatchRec := ⟨typ, start, count, (bs.drop 8).take n⟩
      if !recOk r ((bs.drop (8 + n)).take (p - n)) then .error 9
      else if !inScope oem r then .error 10
      else match patchRecs oem fuel (bs.drop (8 + p)) with
        | .ok l => .ok (r :: l)
        | .error e => .error e

/-- A record keeps the format rules of R247. -/
def recFormat (r : PatchRec) : Bool :=
  match r.typ with
  | 1 => (List.range r.count).all fun i => microFormat (word32 r.data (4 * i))
  | 2 => (List.range r.count).all fun i => nanoFormat (ofBytes ((r.data.drop (16 * i)).take 16))
  | _ => (List.range r.data.length).all fun i =>
      !(decide (0x30000 ≤ r.start + i) && decide (r.start + i < 0x30100)) || decide (byteAt r.data i < 2)

/-- The fields of a blob's header. -/
def blobSlot (b : List Byte) : Nat := byteAt b 6
def blobEnc (b : List Byte) : Bool := byteAt b 7 % 2 == 1
def blobOem (b : List Byte) : Bool := byteAt b 7 / 2 % 2 == 1
def blobLen (b : List Byte) : Nat := word32 b 16
def blobPayload (b : List Byte) : List Byte := (b.drop 112).take (blobLen b)

/-- The header keeps R70. -/
def blobHeaderOk (b : List Byte) : Bool :=
  let len := blobLen b
  decide (112 ≤ b.length) && decide (word32 b 0 = 0x4250584B) && decide (half b 4 = 1) && decide (blobSlot b ≤ 3)
    && decide (byteAt b 7 < 4) && (blobOem b || decide (blobSlot b ≤ 1)) && decide (half b 12 ≤ Config.romVersion % 65536)
    && decide (half b 14 = 0) && decide (len % 8 = 0) && decide (8 ≤ len) && ((b.drop 32).take 16).all (· == 0)
    && decide (b.length = 112 + len + 64 + (blobEnc b).toNat * 16)

/-- The key of an encrypted blob (R72). -/
def State.blobKey (s : State) (b : List Byte) : List Byte :=
  sha256 ((List.range 32).map Config.keyConstant ++ s.slotDigest (blobSlot b) ++ (b.drop 8).take 4)

/-- Blob i is judged (R71): the reason of its failure, or 0; its plaintext stands in staging. -/
def State.judgeBlob (s : State) (i : Nat) (b : List Byte) : Nat × State :=
  if !blobHeaderOk b then (9, s) else
  let k := s.keyCheck (blobSlot b) ((b.drop 48).take 64) (b.drop (b.length - 64)) (b.take (b.length - 64))
  if k ≠ 0 then (k, s) else
  let plain := if blobEnc b then
      gcmOpen (s.blobKey b) ((b.drop 20).take 12) (b.take 112) (blobPayload b) ((b.drop (112 + blobLen b)).take 16)
    else some (blobPayload b)
  match plain with
  | none => (8, s)
  | some p =>
    let s := if blobEnc b then s.overwrite (stagingAddr i + 112) p else s
    match patchRecs (blobOem b) (p.length / 8 + 1) p with
    | .error e => (e, s)
    | .ok l => (if l.all recFormat then 0 else 9, s)

/-- The reply to a LOAD_PATCH by the reason of R81 (R71). -/
def patchReply (reason : Nat) : Nat := if reason = 0 then rOK else if 5 ≤ reason ∧ reason ≤ 8 then rAUTH else rPARAM

/-- Replace the result of blob i. -/
def judged (l : List Blob) (i r : Nat) : List Blob :=
  (l.zipIdx).map fun (e : Blob × Nat) => if e.2 = i then { e.1 with res := some r } else e.1

/-- A patch record is written into the stores or KB (R75). -/
def State.applyRec (s : State) (r : PatchRec) : State :=
  match r.typ with
  | 1 => (List.range r.count).foldl (fun (s : State) i =>
      (s.setMicro (r.start + i) (word32 r.data (4 * i))).setBad false (r.start + i) 0) s
  | 2 => (List.range r.count).foldl (fun (s : State) i =>
      (s.setNano (r.start + i) (ofBytes ((r.data.drop (16 * i)).take 16))).setBad true (r.start + i) 0) s
  | _ => s.overwrite (0x700000 + r.start) r.data

/-- Blob i is applied. -/
def State.applyBlob (s : State) (i : Nat) (b : Blob) : State :=
  let r := s.blobBytes i b.len
  let bs := r.1
  let s := r.2
  match patchRecs (blobOem bs) (blobLen bs / 8 + 1) (blobPayload bs) with
  | .ok l => l.foldl State.applyRec s
  | .error _ => s

/-- The LONG bits of the OEM attribute table reach the decoder (R246). -/
def State.copyLong (s : State) : State :=
  let r := s.lanternBytes 0x730000 256
  let s := r.2
  { s with mcs := { s.mcs with
      long := (r.1.zipIdx).foldl (fun (v : BitVec 256) e => if bit e.1 0 then setBit v e.2 true else v) 0 } }

/-- The path rules of R247: they bind where an OEM blob of slot 2 or 3 is among the blobs, over the OEM region as all blobs
leave it. -/
def State.blobPathsOk (s : State) : Bool :=
  let bound := (s.str.blobs.zipIdx).any fun (e : Blob × Nat) =>
    let bs := (s.blobBytes e.2 e.1.len).1
    blobOem bs && decide (2 ≤ blobSlot bs)
  !bound || ((s.str.blobs.zipIdx).foldl (fun (s : State) (e : Blob × Nat) => s.applyBlob e.2 e.1) s).pathRules

/-! ### S9: the start mode (R78) -/

/-- S9 enters RUN: the list of R78. A standby stays in STOP (R372). -/
def State.startsInRun (s : State) : Bool :=
  let smode := fld s.str.cfg 1 0
  decide (s.str.gen ≠ 0) && decide (s.str.alts / 2 ^ 8 % 2 = 0) && !s.str.s7Bad
    && !(bit s.str.cfg 2 && (decide (s.str.cause = 4) || decide (s.str.cause = 16)))
    && (decide (smode = 1) || (decide (smode = 2) && decide (s.str.prevMode = 1)))
    && s.domainsReady && decide (s.role ≠ 2)

/-- Lantern writes OLC_STAT.GEN and OLC_GENID at S9 (R371): it reads GEN_ID in the image that GEN names, where the banks can be read.
DESIGN CHOICE: OLC_GENID keeps 0 where they cannot, or where the word is uncorrectable. -/
def State.showGen (s : State) : State :=
  let t := s.str.gen
  if t = 0 ∨ !(targetPds t).all s.serves then s else
  let s := (targetPds t).foldl State.touch s
  let r := s.lanternCheck (genBase t + 8)
  if r.1 then r.2.setReg Reg.OLC_GENID (BitVec.ofNat 32 (r.2.genId t)) else r.2

/-- S9. -/
def State.enterMode (s : State) : State :=
  let s := (s.beginStep 9).showGen
  let s := { s with bcn := { s.bcn with role := s.configuredRole }, car := { s.car with latches := 0 } }
  let s := if s.startsInRun then
      let r := s.tryRun 8
      if r.1 then r.2 else r.2.changeMode .stop 0 8
    else s.changeMode .stop 0 8
  let s := s.stepPasses 9
  let s := { s with str := { s.str with step := 15, entered := s.scn.mode.code } }
  s.logPut 0x0001 0x13 [BitVec.ofNat 8 s.str.entered, BitVec.ofNat 8 s.str.cause, BitVec.ofNat 8 s.str.patches,
    BitVec.ofNat 8 s.str.flags]

/-- S8 begins: with no generation, or by its alternative, it is skipped (R77, R83). -/
def State.enterS8 (s : State) : State :=
  let s := s.beginStep 8
  if s.str.gen = 0 ∨ s.str.alts / 2 ^ 8 % 2 = 1 then (s.stepSkipped 8).enterMode else s

/-- A step from S4 on fails: pending replies are written, and the reset of R82 is to come. DESIGN CHOICE: the LOAD_PATCH of a
blob that has not been judged is answered ABORTED. -/
def State.startFails (s : State) (n reason : Nat) : State :=
  let s := s.stepFails n reason
  let s := (List.range 4).foldl (fun (s : State) _ => s.finishJob (fun j => j.op == 0x10) rABORTED) s
  { s with str := { s.str with failed := true, failedAt := s.clk.us } }

/-! ### S4 to S6 (R67, R68, R75, R83) -/

/-- MAPOUT of the record is in force (R263). -/
def State.showMapout (s : State) : State := s.setReg Reg.MEM_MAPOUT (BitVec.ofNat 32 s.str.mapout)

/-- The start goes on without patches: none is applied (R80). -/
def State.patchless (s : State) : State :=
  let s := { s with str := { s.str with patchless := true, s4Ended := true, patches := 0 } }
  s.writeDigest

/-- The decision of R67: the steps whose COUNT is 3 take their alternatives. -/
def State.decideAlts (s : State) : State :=
  if s.str.decided then s else
  let a := ([4, 5, 6, 7, 8].filter fun n => (s.stepRec n).count == 3).foldl (fun m n => m + 2 ^ n) 0
  let s := { s with str := { s.str with decided := true, alts := a } }
  if a / 16 % 8 = 0 then s
  else (((((s.stepSkipped 4).stepSkipped 5).stepSkipped 6).patchless).beginStep 7)

/-- The reason that some judged blob failed with. -/
def State.blobFault (s : State) : Option Nat := (s.str.blobs.filterMap (·.res)).find? (· != 0)

/-- S5 ends once every blob has been judged, or with the first that fails; a path rule that fails, fails the last
(R247). -/
def State.endS5 (s : State) : State :=
  match s.blobFault with
  | some r => s.startFails 5 r
  | none =>
    if !s.str.blobs.all fun b => b.res.isSome then s
    else if s.blobPathsOk then (s.stepPasses 5).beginStep 6
    else
      let i := s.str.blobs.length - 1
      let s := { s with str := { s.str with blobs := judged s.str.blobs i 10, patchRes := putAt s.str.patchRes i 10 } }
      s.startFails 5 10

/-- S4 ends. -/
def State.endS4 (s : State) : State :=
  if s.str.step ≠ 4 ∨ s.str.s4Ended then s else
  let s := s.decideAlts
  if s.str.s4Ended then s else
  let s := { s with str := { s.str with s4Ended := true } }
  if s.str.blobs.isEmpty then
    if bit s.str.cfg 3 then s.startFails 4 1
    else ((((s.stepPasses 4).stepSkipped 5).stepSkipped 6).patchless).beginStep 7
  else ((s.stepPasses 4).beginStep 5).endS5

/-- With an S4 limit of 0, S4 ends once the commands that stood in the ring have been processed. -/
def State.endsByRing (s : State) : State :=
  if s.str.step = 4 ∧ !s.str.s4Ended ∧ fld s.str.cfg 31 16 = 0 ∧ s.str.s4Wait = 0 then s.endS4 else s

/-- S4 begins: the digests are read, the ring opens, and a warm start decides. -/
def State.enterS4 (s : State) : State :=
  let s := s.beginStep 4
  let d := (List.range 4).flatMap fun n => (List.range 32).map fun i => Config.keyByte n i
  let waits := (List.range 16).foldl (fun m n => m + (decide ((s.slot n).st = 1)).toNat * 2 ^ n) 0
  let s := { s with
    str := { s.str with digests := d, s4Wait := waits }
    hst := { s.hst with isOpen := true } }
  (if s.str.cold then s else s.decideAlts).endsByRing

/-- A command has been processed: a cold start decides after its first one. -/
def State.afterCommand (s : State) (slot : Nat) : State :=
  if s.str.step ≠ 4 then s else
  let s := { s with str := { s.str with
    firstDone := true, s4Wait := s.str.s4Wait - (s.str.s4Wait / 2 ^ slot % 2) * 2 ^ slot } }
  (s.decideAlts).endsByRing

/-! ### S7 (R76, R263, R264) -/

/-- The halves that the test takes out of use: those of a bank that may be mapped out there. -/
def mappableHalves : List Nat := [1, 3, 7, 9, 11]

/-- The address range of a half, in MAPOUT's layout (R263). -/
def halfRange (b : Nat) : Nat × Nat :=
  match b with
  | 0 => (0x400000, 0x4FFFFF)
  | 1 => (0x500000, 0x5FFFFF)
  | 2 => (0x600000, 0x63FFFF)
  | 3 => (0x640000, 0x67FFFF)
  | 4 => (0x680000, 0x69FFFF)
  | 5 => (0x6A0000, 0x6BFFFF)
  | 6 => (0x6C0000, 0x6DFFFF)
  | 7 => (0x6E0000, 0x6FFFFF)
  | 8 => (0x000000, 0x0FFFFF)
  | 9 => (0x100000, 0x1FFFFF)
  | 10 => (0x200000, 0x2FFFFF)
  | _ => (0x300000, 0x3FFFFF)

/-- The halves that the march writes: of DB, SB, IB and the code banks that S2 cleared, those marked in MAPOUT apart (R76). -/
def State.marchHalves (s : State) : List Nat :=
  (List.range 12).filter fun b => s.str.mapout / 2 ^ b % 2 == 0 && (decide (b < 6)
    || (decide (8 ≤ b) && decide (b < 10) && decide (s.str.cleared % 2 = 1))
    || (decide (10 ≤ b) && decide (s.str.cleared / 2 % 2 = 1)))

/-- The march leaves every word that it writes 0. -/
def State.march (s : State) : State :=
  s.marchHalves.foldl (fun s b => s.clearBytes (halfRange b).1 (halfRange b).2) s

/-- The half of MAPOUT's layout that the read-only scrub covers at an address, 12 for KB; none where it does not read (R76). -/
def State.scrubHalf (s : State) (a : Nat) : Option Nat :=
  if regionOf a = .kb then some 12 else
  (mapBit a).filter fun b => decide (6 ≤ b) && s.str.mapout / 2 ^ b % 2 == 0 && !s.marchHalves.contains b

/-- The scrub of S7: the halves with a word that cannot be corrected; every word with a single error is corrected and written
back (R262). -/
def State.scrubBanks (s : State) : List Nat × State :=
  s.banks.ecc.foldl (fun (r : List Nat × State) e =>
    match s.scrubHalf (8 * e.1) with
    | none => r
    | some b =>
      let q := r.2.scrubRead (8 * e.1) 7
      (if q.1 ∨ b ∈ r.1 then r.1 else r.1 ++ [b], q.2)) ([], s)

/-- The active generation extends into a mapped-out half, or is joined although one is (R263, R264). -/
def State.genMapped (s : State) : Bool :=
  let len := s.str.genLen
  match s.str.gen with
  | 1 => s.str.mapout / 2 ^ 9 % 2 == 1 && decide (0x100000 < len)
  | 2 => s.str.mapout / 2 ^ 11 % 2 == 1 && decide (0x100000 < len)
  | 3 => s.str.mapout / 2 ^ 9 % 2 == 1 || s.str.mapout / 2 ^ 11 % 2 == 1
  | _ => false

/-- The halves of a set of failing halves, as bits. -/
def halfBits (l : List Nat) : Nat := l.foldl (fun m b => m + 2 ^ b) 0

end Sys2Proof.Machine
end

