-- ==== Sys2Proof/Machine/StartRows.lean ====
section
/-! DEFINITION. The rows of resets, power domains, clocks and the start sequence (R34 to R87). -/

namespace Sys2Proof.Machine

abbrev StartOut := Host.Outcome State Fault Refusal

/-! ### Resets (R38, R54, R63) -/

/-- POR_N falls: everything is reset, PD0 and the start record included. -/
def execPorNAssert (s : State) : StartOut :=
  .next { State.reset with pending := s.pending, free := s.free }

/-- POR_N rises with the straps at their levels: the keeper wakes (R54, R63). -/
def execPorNRelease (chainId : BitVec 3) (pairRole : Bool) (s : State) : StartOut :=
  .next (if !s.pwr.por then s else
    State.keeperWake { s with pwr := { s.pwr with por := false, chainId := chainId, pairRole := pairRole } } true)

/-- The reset filter has seen six low samples of CLAP_I. -/
def execClapReset (s : State) : StartOut := .next (if s.pwr.por then s else s.blockReset 1)

/-- No complete slot has a reply that the host has still to read. -/
def State.repliesRead (s : State) : Bool :=
  (List.range 16).all fun n => decide ((s.slot n).st ≠ 3) || (s.slot n).consumed

/-- The reset that follows the failure of a step from S4 on (R82): once the host has consumed the replies, else 10 ms after the
failure. -/
def execStepFailureReset (s : State) : StartOut :=
  .next (if s.str.failed then
    (if s.repliesRead then s else s.carry (s.str.failedAt + 10000)).blockReset causeRstreq
  else s)

/-! ### Power domains (R47 to R50) -/

/-- A POWER_STATE of domain n for a state is answered (R419). -/
def State.powerReply (s : State) (n tgt code : Nat) : State :=
  s.finishJob (fun j => j.op == 0x48 && j.args == [n, tgt]) code

/-- The rail of a waking domain is up. -/
def execPwrAckRise (pd : Nat) (s : State) : StartOut :=
  .next (if pd = 0 ∨ 11 < pd then s else
    match (s.dom pd).st with
    | .waking => s.setDom pd { s.dom pd with st := .reset true, ack := true }
    | _ => s.setDom pd { s.dom pd with ack := decide ((s.dom pd).st ≠ .off) })

/-- The acknowledge of a domain that powers down reads 0: the domain is OFF, and a wake that waited starts. -/
def execPwrAckFall (pd : Nat) (s : State) : StartOut :=
  .next (if pd = 0 ∨ 11 < pd then s else
    match (s.dom pd).st with
    | .falling f =>
      let w := (s.dom pd).wake
      let s := s.moveDom pd .off
      let s := s.setDom pd { s.dom pd with st := .off, ack := false, wake := false }
      let s := (s.logDomain pd f 2).powerReply pd 2 rOK
      if w then s.wakeUp pd else s
    | _ => s)

/-- The acknowledge of a domain in RUN or DOZE falls by itself: its rail has left its limits. The spec gives the block no
effect but what it sees of the pin. -/
def execPwrAckUnrequestedFall (pd : Nat) (s : State) : StartOut :=
  .next (if pd = 0 ∨ 11 < pd then s else
    match (s.dom pd).st with
    | .run => s.setDom pd { s.dom pd with ack := false }
    | .doze => s.setDom pd { s.dom pd with ack := false }
    | .dozing => s.setDom pd { s.dom pd with ack := false }
    | _ => s)

/-- The level that PWR_REQ asks for has not come. -/
def Dom.ackAwaited (d : Dom) : Bool :=
  match d.st with
  | .waking => !d.ack
  | .falling _ => d.ack
  | .run => !d.ack
  | .doze => !d.ack
  | .dozing => !d.ack
  | _ => false

/-- PWR_TACK.TACK µs have passed since PWR_REQ changed, without the expected level (R49); in S2 it fails the step (R65, R79). -/
def execAckTimeout (pd : Nat) (s : State) : StartOut :=
  .next (if pd = 0 ∨ 11 < pd ∨ (s.dom pd).late ∨ !(s.dom pd).ackAwaited then s else
    let s := s.carry ((s.dom pd).since + s.f Reg.PWR_TACK 7 0)
    let s := s.setDom pd { s.dom pd with late := true }
    let s := (s.setB Reg.PWR_FAULT pd).classify 6 0
    let s := s.finishJob (fun j => j.op == 0x48 && j.args.head? == some pd) rABORTED
    if s.str.step = 2 ∧ !s.str.halt then
      let s := s.stepFails 2 3
      { s with str := { s.str with halt := true } }
    else s)

/-- After a restart the slots are answered or marked (R421). -/
def State.slotRestart (s : State) : State :=
  let busy := (List.range 16).filter fun n => decide ((s.slot n).st = 1) || decide ((s.slot n).st = 2)
  let unread := (List.range 16).filter fun n => decide ((s.slot n).st = 3) && !(s.slot n).consumed
  let s := unread.foldl (fun (s : State) n => s.setSlot n { s.slot n with restart := true }) s
  let s := busy.foldl (fun (s : State) n =>
    (s.setSlot n { st := 3, tag := (s.slot n).tag, code := rABORTED, restart := true }).count Reg.HST_ABTCNT) s
  if busy.isEmpty then s else s.irq 0

/-- What a domain's report of ready sets off besides. -/
def State.readyEffects (s : State) (n : Nat) (clear : Bool) : State :=
  match n with
  | 7 =>
    let s : State := if clear then State.stampBreak { s with scn := { s.scn with staged := [], forced := false } }
      else s.engineForces
    s.restoreGov
  | 8 => if s.str.step ≤ 3 then s.slotRestart else s
  | 9 => State.restoreField { s with pwr := { s.pwr with flStopped := s.pwr.flStopped && bit s.clk.lost 2 } }
  | _ => s

/-- A waking or reset domain reports ready (R47, R55); its registers leave reset at their Reset values (R8). -/
def execDomainReady (pd : Nat) (s : State) : StartOut :=
  .next (if pd = 0 ∨ 11 < pd then s else
    match (s.dom pd).st with
    | .reset clear =>
      let d := s.dom pd
      let s := State.resetRegs (if clear then (s.nextEpoch pd).clearDomain pd else s) pd
      let s := s.moveDom pd .run
      let s := s.setDom pd { d with st := .run, dozeAfter := false }
      let s := if clear then s.logDomain pd 2 0 else s
      let s := { s with banks := { s.banks with
        patrol := Map.drop (fun b => (banksOf pd).any fun r => bankCode r.1 == b) s.banks.patrol } }
      let s := (s.fireBank pd).readyEffects pd clear
      let s := s.powerReply pd 0 rOK
      if d.dozeAfter then s.moveDom pd .dozing else s
    | _ => s)

/-- Domain n has accepted requests that it has not completed (R50): the core's load, a copy of the host loader, a digest. -/
def State.domBusy (s : State) (n : Nat) : Bool :=
  (match s.sentLoad with
    | some h => decide (domainOf h.pa = n)
    | none => false)
    || s.hst.jobs.any fun j => (j.op == 0x08 || j.op == 0x09) && (j.args.headD 0 + 3 == n || (j.args.headD 0 == 3 && (n == 4 || n == 5)))

/-- A domain asked to doze gates its clocks once its accepted requests have completed (R50); its contents are kept, and PD11
loses its connection, and its registers take their Reset values, as it leaves RUN (R445). -/
def execDozeEntry (pd : Nat) (s : State) : StartOut :=
  .next (if pd = 0 ∨ 11 < pd ∨ s.domBusy pd then s else
    match (s.dom pd).st with
    | .dozing =>
      let need := s.required pd
      let s := if pd = 11 then s.debugLost.resetRegs 11 else s
      let safe := s.sendsSafe
      let s := ((s.moveDom pd .doze).safeFrom safe).powerReply pd 1 rOK
      (s.fireBank pd).leftRun pd need
    | _ => s)

/-! ### PFAIL_N (R52, R456) -/

/-- PFAIL_N falls: wakes are held, the partner is told, and the last gasp starts. -/
def execPfailNFall (s : State) : StartOut :=
  .next (if s.pwr.por then s else
    let s := { s with pwr := { s.pwr with pfail := true } }
    (s.failTwo (Config.failCause 2)).lastGasp)

/-- PFAIL_N has been 1 for 10 ms: held wakes are carried out, and the last gasp's freeze ends. -/
def execPfailNRecovery (s : State) : StartOut :=
  .next (if !s.pwr.pfail then s else
    let s := { s with pwr := { s.pwr with pfail := false } }
    let s := (rangeFrom 1 11).foldl (fun (s : State) n =>
      if (s.dom n).st = .off ∧ (s.dom n).wake then s.wakeUp n else s) s
    s.gaspEnds)

/-! ### Block sleep (R53) -/

/-- One domain goes down for sleep: the active code bank's dozes. -/
def State.sleepDom (s : State) (n : Nat) : State :=
  if s.activePd n then
    match (s.dom n).st with
    | .run => s.moveDom n .doze
    | .dozing => s.moveDom n .doze
    | _ => s
  else s.powerDown n

/-- The host has still to consume the reply to the POWER_STATE that asked for sleep. -/
def State.sleepReplyWaits (s : State) : Bool :=
  match s.pwr.sleepSlot with
  | some n => decide ((s.slot n).st = 3) && !(s.slot n).consumed
  | none => false

/-- The domains power down, and the mode ends (R53): in STOP, once the host has consumed the reply, else 10 ms after it. -/
def execSleepPowerDown (s : State) : StartOut :=
  .next (if s.pwr.sleep ≠ .entering ∨ s.scn.mode ≠ .stop then s else
    let s := if s.sleepReplyWaits then s.carry (s.pwr.sleepAt + 10000) else s
    let s := s.changeMode .none 0 9
    let s := { s with pwr := { s.pwr with sleep := .asleep, sleepAt := s.clk.us } }
    [11, 10, 9, 7, 6, 5, 4, 8, 2, 1, 3].foldl State.sleepDom s)

/-- A wake level on an enabled line ends the sleep. -/
def execSleepWake (src : WakeSrc) (s : State) : StartOut :=
  .next (if s.pwr.sleep ≠ .asleep then s else
    match src with
    | .evtIn k => if 12 ≤ k ∧ k ≤ 15 ∧ bit (s.reg Reg.PWR_WAKE) (k - 12) then s.blockReset 5 else s
    | .clap => if bit (s.reg Reg.PWR_WAKE) 4 then s.blockReset 5 else s)

/-- The keeper alarm expires, TICKS cycles of 32.768 kHz after the entry to sleep. -/
def execKeeperAlarm (s : State) : StartOut :=
  .next (if s.pwr.sleep ≠ .asleep ∨ !bit (s.reg Reg.PWR_WAKE) 5 then s else
    (s.carry (s.pwr.sleepAt + (s.reg Reg.PWR_ALARM).toNat * 1000000 / 32768)).blockReset 5)

/-! ### Clocks (R40, R44, R45) -/

/-- The limits of a boundary clock in Hz, its tolerance included, by its bit of CLK_LOSS (R40). -/
def clockRange (k : Nat) : Nat × Nat :=
  match k with
  | 0 => (100000000, 800000000)
  | 1 => (10000000, 250000000)
  | 2 => (191980800, 192019200)
  | 3 => (99995000, 100005000)
  | 4 => (249975000, 312531250)
  | 5 => (49995000, 250025000)
  | _ => (1000000, 4000000)

/-- A count over 8 cycles of KEEP_CLK lies in range, widened by 1 %. -/
def inRange (k count : Nat) : Bool :=
  let r := clockRange k
  decide (r.1 * 99 ≤ count * 409600) && decide (count * 409600 ≤ r.2 * 101)

/-- The counts of a window are latched. DESIGN CHOICE: VALID, 'a complete window has been counted since the last reset', means the
reset of PD0, which holds the register (R8). -/
def State.latchMeas (s : State) (counts : List Nat) : State :=
  (List.range 7).foldl (fun (s : State) k =>
    s.setReg (Reg.CLK_MEAS + 4 * k) (BitVec.ofNat 32 (counts.getD k 0 % 2 ^ 24 + 2 ^ 31))) s

/-- The clock is monitored. -/
def State.monitored (s : State) (k : Nat) : Bool :=
  k == 0 || k == 6 || k == 7 || (decide (k ≤ 5) && bit (s.reg Reg.CLK_MON) k)

/-- A clock is back in range: FL_CLK brings a domain reset of PD9. -/
def State.clockBack (s : State) (k : Nat) : State :=
  let s := { s with clk := { s.clk with lost := setBit s.clk.lost k false } }
  if k = 2 ∧ s.pwr.flStopped ∧ s.lanternRuns then s.domainReset 9 else s

/-- What a window says of one clock. -/
def State.judgeClock (s : State) (counts : List Nat) (k : Nat) : State :=
  if inRange k (counts.getD k 0) then s.clockBack k
  else if s.monitored k then s.loseClock k
  else s

/-- CLOCK_LOSS: a monitored clock shows no edge in its limit. -/
def execClockLoss (clk : Nat) (s : State) : StartOut :=
  .next (if s.pwr.por ∨ 7 < clk ∨ !s.monitored clk then s else s.loseClock clk)

/-- A measurement window ends; KEEP_CLK, which times it, is there. Once S1 has passed, the divider of µs time is trimmed (R45).
A domain reset of PD9 that it brings answers a load held there (R57). -/
def execMeasurementWindow (counts : List Nat) (s : State) : StartOut :=
  .next (if s.pwr.por then s else
    let s := (s.latchMeas counts).clockBack 7
    let s : State := if 2 ≤ s.str.step then { s with clk := { s.clk with divider := counts.getD 6 0 % 2 ^ 24 } } else s
    State.deliverAborted <|
    (List.range 7).foldl (fun (s : State) k => s.judgeClock counts k) s)

/-- A rising edge on EVT_IN line k fires source 64 + k (R35). -/
def execEvtInEdge (k : Nat) (s : State) : StartOut := .next (if 15 < k then s else s.fire (64 + k))

/-! ### S1 to S3 (R64 to R66) -/

/-- S2 begins: the domains go through OFF, which counts in their epochs (R48), those that are off wake, and the code
banks are reset (R65). -/
def State.clearStep (s : State) (n : Nat) : State :=
  let d := s.dom n
  let code := decide (n = 4) || decide (n = 5)
  let clears (s : State) : State := if code then { s with str := { s.str with cleared := s.str.cleared ||| 2 ^ (n - 4) } } else s
  match d.st with
  | .off => (clears s).wakeUp n
  | .falling f => (clears s).setDom n { d with st := .falling f, wake := true }
  | .reset false => if code then s else ((clears s).nextEpoch n).setDom n
      { d with st := .falling 3, wake := true, late := false, since := s.clk.us }
  | .run => if code then s.gateCloses n (.reset false) else s
  | .doze => if code then (s.moveDom n .run).gateCloses n (.reset false) else s
  | .dozing => if code then (s.moveDom n .run).gateCloses n (.reset false) else s
  | _ => ((clears s).nextEpoch n).setDom n { d with st := .falling 3, wake := true, late := false, since := s.clk.us }

def State.enterS2 (s : State) : State := (rangeFrom 1 11).foldl State.clearStep (s.beginStep 2)

/-- S1 passes with the counts of a complete window in which CORE_CLK, WDT_CLK and KEEP_CLK are in range (R64): monitoring,
the watchdog's limit, PERIOD ms at the frequency measured (R462), the divider of µs time (R45), and fCORE. -/
def execClockCheckPass (counts : List Nat) (s : State) : StartOut :=
  .next (if s.pwr.por ∨ s.str.step ≠ 1 ∨ !inRange 0 (counts.getD 0 0) ∨ !inRange 6 (counts.getD 6 0) then s else
    let s := s.latchMeas counts
    let s := [0, 6, 7].foldl State.clockBack s
    let s := [2, 3, 4, 5].foldl (fun (s : State) k =>
      if inRange k (counts.getD k 0) then (s.clockBack k).setB Reg.CLK_MON k else s) s
    let s := { s with
      str := { s.str with fcore := counts.getD 0 0 % 2 ^ 24 }
      clk := { s.clk with divider := counts.getD 6 0 % 2 ^ 24 }
      flt := { s.flt with wdtFrom := s.flt.ft, wdtWarned := false, wdtLimit := 1000 * s.f Reg.FLT_WDT 15 0 } }
    (s.stepPasses 1).enterS2)

/-- A clock that S1 requires is out of range, and WDT_CLK and KEEP_CLK, which time the wait, are not both (R64). -/
def State.clockWaits (s : State) : Bool :=
  (bit s.clk.lost 0 || bit s.clk.lost 6 || bit s.clk.lost 7) && !(bit s.clk.lost 6 && bit s.clk.lost 7)

/-- Each 100 ms of waiting at S1, 3277 cycles of KEEP_CLK, counts a failure with reason 2 (R64). -/
def execClockCheckFailure (s : State) : StartOut :=
  .next (if s.pwr.por ∨ s.str.step ≠ 1 ∨ !s.clockWaits then s else
    let s := s.carry (s.str.waitFrom + 100000)
    { s with str := { s.str with waitFrom := s.clk.us } }.stepFails 1 2)

/-- S2 ends once every domain is in RUN and cleared. -/
def execBankClear (s : State) : StartOut :=
  .next (if s.str.step ≠ 2 ∨ s.str.halt ∨ !(rangeFrom 1 11).all (fun n => (s.dom n).st = .run) then s
    else (s.stepPasses 2).beginStep 3)

/-- S3: the loader copies the boot ROM, and Lantern starts at its vector 0 (R66, R222); a CRC that differs is a start halt. -/
def execBaseControlStoreLoad (crcOk : Bool) (s : State) : StartOut :=
  .next (if s.str.step ≠ 3 ∨ s.str.halt then s
    else if crcOk then (((s.baseLoad).stepPasses 3).enterS4).lanternAt (lanternVector 0)
    else
      let s := s.stepFails 3 4
      { s with str := { s.str with halt := true } })

/-! ### S4 to S8 (R67 to R78) -/

/-- The S4 limit expires; a limit of 0 does so only with no command left that stood in the ring (R68). -/
def execPatchFetchTimeout (s : State) : StartOut :=
  .next (if s.str.step ≠ 4 ∨ s.str.s4Ended ∨ (fld s.str.cfg 31 16 = 0 ∧ s.str.s4Wait ≠ 0) then s
    else (s.carry (s.str.stepFrom + 1000 * fld s.str.cfg 31 16)).endS4)

/-- S5 judges the next blob, which is answered (R71). -/
def execAuthenticateAndDecrypt (blob : Nat) (s : State) : StartOut :=
  .next (if s.str.step ≠ 4 ∧ s.str.step ≠ 5 then s else
    match s.str.blobs[blob]? with
    | none => s
    | some b =>
      if b.res.isSome ∨ s.str.failed ∨ !(s.str.blobs.take blob).all (fun x => x.res = some 0) then s else
      let p := s.blobBytes blob b.len
      let r := p.2.judgeBlob blob p.1
      let last := decide (s.str.step = 5) && decide (blob + 1 = s.str.blobs.length)
      let r := if r.1 = 0 && last && !r.2.blobPathsOk then (10, r.2) else r
      let s := r.2
      let s := { s with str := { s.str with
        blobs := judged s.str.blobs blob r.1, patchRes := putAt s.str.patchRes blob r.1 } }
      let s := s.finishJob (fun j => j.op == 0x10 && j.slot == b.slot) (patchReply r.1)
      if s.str.step = 4 then (if r.1 = 0 then s else s.endS4) else s.endS5)

/-- S6 applies the blobs; a word that reads back wrong fails it, and the stores are loaded anew (R75). -/
def execApplyPatch (readBackOk : Bool) (s : State) : StartOut :=
  .next (if s.str.step ≠ 6 ∨ s.str.failed then s else
    let n := s.str.blobs.length
    let s := (s.str.blobs.zipIdx).foldl (fun (s : State) (e : Blob × Nat) => s.applyBlob e.2 e.1) s
    if readBackOk then
      let s := ((s.copyImage).copyLong).writeDigest
      let s := { s with str := { s.str with patches := n } }
      (s.stepPasses 6).beginStep 7
    else
      let s := s.baseLoad
      { s with str := { s.str with patches := 0 } }.startFails 6 11)

/-- S7 ends: the halves with a march fault as bits in MAPOUT's layout, and whether KB failed; what the scrub finds counts with
them (R76, R83, R262, R263). MEM_MAPOUT and MEM_BIST are written (R266). -/
def execBankBist (fails : Nat) (kbFail : Bool) (s : State) : StartOut :=
  .next (if s.str.step ≠ 7 ∨ s.str.failed then s else
    let r := (s.march).scrubBanks
    let s := (r.2).showMapout
    let bad := (List.range 12).filter fun b =>
      (fails / 2 ^ b % 2 == 1 || r.1.contains b) && s.str.mapout / 2 ^ b % 2 == 0
    let kbFail := kbFail || r.1.contains 12
    let s := s.setReg Reg.MEM_BIST (BitVec.ofNat 32 (halfBits bad + 0x1000))
    if bad.isEmpty && !kbFail then (s.stepPasses 7).enterS8
    else if s.str.alts / 2 ^ 7 % 2 = 0 then s.startFails 7 12
    else
      let out := bad.filter fun b => mappableHalves.contains b
      let s := { s with str := { s.str with mapout := s.str.mapout + halfBits out } }
      let s := s.showMapout
      let s : State := if s.genMapped then { s with str := { s.str with gen := 0 } } else s
      if out.length = bad.length && !kbFail then (s.stepPasses 7).enterS8
      else
        let s := s.stepFails 7 12
        State.enterS8 { s with str := { s.str with s7Bad := true } })

/-- What the digest of the active generation is worth: 0, or the reason of S8's failure (R77). -/
def State.genFault (s : State) : Nat × State :=
  let t := s.str.gen
  if !(targetPds t).all s.serves || s.genMapped then (15, s) else
  let s := (targetPds t).foldl State.touch s
  let r := s.lanternSweep (genBase t) s.str.genLen
  if !r.1 then (14, r.2)
  else if sha256 (r.2.genBytes t s.str.genLen) ≠ s.str.genDigest then (13, r.2)
  else (0, r.2)

/-- S8 ends. -/
def execCodeBankVerification (s : State) : StartOut :=
  .next (if s.str.step ≠ 8 ∨ s.str.failed then s else
    let r := s.genFault
    if r.1 = 0 then (r.2.stepPasses 8).enterMode
    else r.2.startFails 8 r.1)

end Sys2Proof.Machine
end

