-- ==== Sys2Proof/Machine/HostBase.lean ====
section
/-! DEFINITION. The interpretation of a ring slot up to check 5 (R406, R410, R411, R413), and what every command shares:
its packet, XB ranges, replies and deferral (R412, R413). -/

namespace Sys2Proof.Machine

abbrev HostOut := Host.Outcome State Fault Refusal

/-! ### Packets -/

/-- Word i of a packet, and a field of it. -/
def pw (ws : List Word) (i : Nat) : Word := ws.getD i 0
def pf (ws : List Word) (i hi lo : Nat) : Nat := fld (pw ws i) hi lo

/-- The opcode and the length in bytes. -/
def pktOp (ws : List Word) : Nat := pf ws 0 7 0
def pktLen (ws : List Word) : Nat := pf ws 0 31 16

/-- What LEN a command requires, by its packet; none where the opcode is not in the table (R413). -/
def wantedLen (ws : List Word) : Option Nat :=
  match pktOp ws with
  | 0x01 => some 8 | 0x02 => some 4 | 0x03 => some 8 | 0x04 => some 4 | 0x08 => some 20 | 0x09 => some 40
  | 0x0A => some 16 | 0x0B => some 8 | 0x0C => some (40 + 8 * pf ws 1 4 0) | 0x10 => some 16 | 0x11 => some 132
  | 0x12 => some 4 | 0x18 => some 8 | 0x19 => some 8 | 0x1A => some 12 | 0x20 => some 12
  | 0x21 => some (20 + 8 * pf ws 4 4 0) | 0x22 => some 8 | 0x28 => some (8 + 8 * pf ws 1 4 0)
  | 0x29 => some (8 + 8 * pf ws 1 4 0) | 0x30 => some 16 | 0x31 => some 8 | 0x32 => some 16 | 0x38 => some 4
  | 0x39 => some 12 | 0x3A => some 12 | 0x3B => some 4 | 0x40 => some 12
  | 0x41 => some (if pf ws 1 1 0 = 1 then 152 else if pf ws 1 1 0 = 3 ∧ pktLen ws = 152 then 152 else 8)
  | 0x48 => some 8 | 0x50 => some 8
  | _ => none

/-- Check 2 of R411. -/
def lenOk (ws : List Word) : Bool :=
  decide (4 ≤ pktLen ws) && decide (pktLen ws ≤ 256) && decide (pktLen ws % 4 = 0) && decide (wantedLen ws = some (pktLen ws))

/-- The commands that R67 admits from S4 to S9. -/
def startAdmits (op : Nat) : Bool := [0x01, 0x02, 0x04, 0x10, 0x11, 0x12, 0x39, 0x50].contains op

/-- Check 4: the commands that R373 refuses in a role. -/
def State.roleRefuses (s : State) (op : Nat) : Bool :=
  (decide (2 ≤ s.role) && [0x18, 0x19, 0x20, 0x21, 0x28, 0x29, 0x03, 0x0C, 0x0A].contains op)
    || (decide (3 ≤ s.role) && [0x30, 0x32].contains op)

/-! ### E fields of packets (R10, R400, R417, R461) -/

/-- The register writes of a BEAT_CONFIG or GOVERNOR_CONFIG packet on a page: offset and value. -/
def regEntries (ws : List Word) : List (Word × Word) :=
  (List.range (pf ws 1 4 0)).map fun j => (pw ws (2 + 2 * j), pw ws (3 + 2 * j))

/-- The page of a packet, and its writes as addresses and values. -/
def packetPage (op : Nat) : Nat := if op = 0x28 then 0x08 else 0x09
def packetWrites (op : Nat) (ws : List Word) : List (Nat × Word) :=
  (regEntries ws).map fun e => (pageBase (packetPage op) + e.1.toNat % 0x1000, e.2)

/-- A list of configuration writes takes effect. -/
def State.applyWrites (s : State) (page : Nat) (l : List (Nat × Word)) : State :=
  l.foldl (fun (s : State) e => if page = 0x08 then s.applyBeaReg e.1 e.2 else s.applyGovReg e.1 e.2) s

/-- The pages of Beat and governor as every staged packet will leave them; of a domain that has lost its page, the copy in KB counts
(R345, R417). -/
def State.packetsStaged (s : State) : State :=
  s.flk.staged.foldl (fun (s : State) x => match x with
    | .beat ws => s.applyWrites 0x08 ws
    | .gov ws => s.applyWrites 0x09 ws
    | _ => s) s.configured

/-- A field's new value, where 0 keeps the current one. -/
def keep0 (new old : Nat) : Nat := if new = 0 then old else new

/-- The registers that words 2 and 3 of STANDBY_CONFIG, and word 3 of CHAIN_CONFIG, leave. -/
def State.newBcnTime (s : State) (w : Word) : Word :=
  BitVec.ofNat 32 (keep0 (fld w 15 0) (s.f Reg.BCN_TIME 15 0) + keep0 (fld w 31 16) (s.f Reg.BCN_TIME 31 16) * 2 ^ 16)
def State.newBcnRepl (s : State) (w : Word) : Word :=
  BitVec.ofNat 32 (keep0 (fld w 15 0) (s.f Reg.BCN_REPL 15 0) + keep0 (fld w 23 16) (s.f Reg.BCN_REPL 23 16) * 2 ^ 16)
def State.newChnTime (s : State) (w : Word) : Word :=
  BitVec.ofNat 32 (keep0 (fld w 15 0) (s.f Reg.CHN_TIME 15 0) + keep0 (fld w 31 16) (s.f Reg.CHN_TIME 31 16) * 2 ^ 16)

/-- Check 5: the command is E or sets an E field. -/
def State.needsExpert (s : State) (ws : List Word) : Bool :=
  match pktOp ws with
  | 0x48 => true
  | 0x50 => bit (pw ws 1) 0
  | 0x30 => decide (s.newBcnTime (pw ws 2) ≠ s.reg Reg.BCN_TIME) || decide (s.newBcnRepl (pw ws 3) ≠ s.reg Reg.BCN_REPL)
  | 0x32 => decide (s.newChnTime (pw ws 3) ≠ s.reg Reg.CHN_TIME)
  | 0x28 => let t := s.packetsStaged
    (packetWrites 0x28 ws).any fun e => setsE (t.shown e.1) e.2 (fieldsAt e.1)
  | 0x29 => let t := s.packetsStaged
    (packetWrites 0x29 ws).any fun e => setsE (t.shown e.1) e.2 (fieldsAt e.1)
  | _ => false

/-- The reply of the first of checks 1 to 5 that fails. -/
def State.headerReply (s : State) (ws : List Word) : Option Nat :=
  let op := pktOp ws
  if (wantedLen ws).isNone then some rUNKNOWN
  else if !lenOk ws then some rPARAM
  else if s.str.step ≠ 15 ∧ !startAdmits op then some rBUSY
  else if s.roleRefuses op then some rMODE
  else if s.needsExpert ws && !s.expert then some rMODE
  else none

/-! ### SLOT_INTERPRETATION (R410) -/

/-- The first submitted slot from NEXT on. -/
def State.nextSlot (s : State) : Option Nat :=
  (List.range 16).findSome? fun i =>
    let n := (s.hst.next + i) % 16
    if (s.slot n).st = 1 then some n else none

/-- A slot is answered, and the start sequence takes note of it (R67). -/
def State.reply (s : State) (n code : Nat) (body : List Word) : State := (s.complete n code body).afterCommand n

/-- The words of slot n as Lantern copies them; false where its copy meets an error that cannot be corrected. -/
def State.copySlot (s : State) (n : Nat) : Bool × List Word × State :=
  let r := s.lanternSweep (slotAddr n) 256
  if r.1 then (true, (List.range 64).map (fun i => r.2.w32 (slotAddr n + 4 * i)), r.2) else (false, [], r.2)

/-- Lantern has taken a command: its status word, and how deep its return stack is, are its firmware's own from here on (R221, R222). -/
def State.lanternBegins (s : State) : State :=
  let k := s.free
  let d := s.lanternDeep k
  let l := s.core.lantern
  { s.tickFree with core := { s.core with lantern := { l with
      sw := Config.freeWord k &&& 0x3F007FFF, depth := d, peak := max l.peak (s.f Reg.EXC_LSP 14 0 + d) } } }

/-- Lantern takes the next slot, copies it and checks its header, in a share slot where a context has the core. Work that staging holds
outside RUN comes first. -/
def execSlotInterpretation (s : State) : HostOut :=
  .next (if !s.hst.isOpen ∨ s.hst.interp.isSome ∨ !s.lanternTurn ∨ !s.serves 8 then s else
    let s := (s.touch 8).lanternSettle
    match s.nextSlot with
    | none => s
    | some n => s.unlessDrained (
      let s := s.slotBegins.drainAll
      let x := s.slot n
      let s := { s.setSlot n { x with st := 2 } with hst := { (s.setSlot n { x with st := 2 }).hst with next := (n + 1) % 16 } }
      let r := s.copySlot n
      let s := r.2.2
      if x.written then (s.reply n rCOLLIDED []).slotEnds
      else if !r.1 then (s.reply n rABORTED []).slotEnds
      else match s.headerReply r.2.1 with
        | some code => (s.reply n code []).slotEnds
        | none =>
          ({ s with hst := { s.hst with interp := some (n, r.2.1) } } : State).lanternBegins))

/-! ### Commands -/

/-- The command under interpretation has this opcode: its interpretation goes on with its slot and packet. Lantern's accesses come
after the stores that the buffer holds (R166 to R168). Where a context has the core it needs a share slot (R199). -/
def State.onCmd (s : State) (op : Nat) (p : List Word → Bool) (f : State → Nat → List Word → State) : State :=
  match s.hst.interp with
  | none => s
  | some (n, ws) =>
    if pktOp ws ≠ op ∨ !p ws ∨ !s.lanternTurn then s
    else s.unlessDrained (
      let s := s.slotBegins.drainAll
      ((f { s with hst := { s.hst with interp := none } } n ws).afterCommand n).slotEnds)

/-- Every packet of an opcode. -/
def anyPkt (_ : List Word) : Bool := true

/-- The command is deferred with what its rule needs to complete it. -/
def State.defer (s : State) (n op : Nat) (args : List Nat) : State :=
  { s with hst := { s.hst with jobs := s.hst.jobs ++ [⟨n, op, args⟩] } }

/-- A command of a kind is deferred. -/
def State.deferred (s : State) (op : Nat) : Bool := s.hst.jobs.any fun j => j.op == op

/-- An XB range that a command names lies in XB outside the ring and outside a mapped-out half (R413). -/
def State.xbRange (s : State) (off len : Nat) : Bool :=
  decide (off % 8 = 0) && decide (0x1000 ≤ off) && decide (off + len ≤ 0x40000)
    && (!bit (s.reg Reg.MEM_MAPOUT) 7 || decide (off + len ≤ 0x20000))

/-- Lantern copies a range out of XB; none, with its machine check, where an error cannot be corrected. -/
def State.xbCopy (s : State) (off len : Nat) : Option (List Byte) × State :=
  let r := s.lanternSweep (xbBase + off) len
  if r.1 then (some ((rangeFrom (xbBase + off) len).map r.2.byte), r.2) else (none, r.2)

end Sys2Proof.Machine
end

