-- ==== Sys2Proof/Machine/HostRows.lean ====
section
/-! DEFINITION. The host commands from check 6 of R411 on: general commands (R414, R415), the start record (R84, R85),
patches (R68), online change (R352 to R357, R368), forces (R284, R416), expert access (R418), power (R419) and the fault
counters (R461). -/

namespace Sys2Proof.Machine

/-! ### PING, GET_INFO, GET_STATUS (R413, R414) -/

/-- PING echoes its word. -/
def execPing (s : State) : HostOut := .next (s.onCmd 0x01 anyPkt fun s n ws => s.complete n rOK [pw ws 1])

/-- A register as a reply gives it: 0 where its domain is off or in reset. -/
def State.replyReg (s : State) (a : Nat) : Word := if s.serves (pageDomain (pageOf a)) then s.shown a else 0

def State.infoBody (s : State) : List Word :=
  [s.replyReg Reg.SYS_ID, s.replyReg Reg.SYS_VER, BitVec.ofNat 32 (s.f Reg.PWR_STRAP 3 0 + 0x10000), s.replyReg Reg.OLC_GENID]
    ++ (List.range 8).map fun i => s.replyReg (Reg.MCS_DIGEST + 4 * i)

def execGetInfo (s : State) : HostOut := .next (s.onCmd 0x02 anyPkt fun s n _ => s.complete n rOK s.infoBody)

/-- Word 1 of GET_STATUS. -/
def State.statusWord (s : State) : Word :=
  BitVec.ofNat 32 (s.scn.mode.code + fld (s.replyReg Reg.EXC_STAT) 1 0 * 4 + s.scn.forced.toNat * 0x10
    + fld (s.replyReg Reg.SCN_STAT) 2 0 * 0x20 + fld (s.replyReg Reg.BCN_STAT) 2 0 * 0x100 + s.expert.toNat * 0x800
    + s.str.startCount * 0x10000)

def State.statusBody (s : State) : List Word :=
  s.statusWord :: [Reg.SCN_CYCLO, Reg.SCN_LASTCYC, Reg.PWR_STAT, Reg.OLC_STAT, Reg.STR_STATUS, Reg.HST_RING,
    Reg.EXC_STAT].map s.replyReg

def execGetStatus (s : State) : HostOut := .next (s.onCmd 0x04 anyPkt fun s n _ => s.complete n rOK s.statusBody)

/-! ### SET_MODE (R282, R415) -/

/-- An earlier SET_MODE that waits is overtaken: what it asked for is dropped (R412). -/
def State.overtakeMode (s : State) : State :=
  ({ s with scn := { s.scn with holdReq := false, stopReq := false } }).finishJob (fun j => j.op == 0x03) rABORTED

/-- SET_MODE RUN. -/
def State.setRun (s : State) (n : Nat) : State :=
  if !s.domainsReady ∨ s.str.gen = 0 ∨ s.stuck then s.complete n rMODE []
  else if s.scn.mode = .hold then (s.releaseHold 0).complete n rOK []
  else
    let r := s.tryRun 0
    r.2.complete n (if r.1 then rOK else rPARAM) []

/-- SET_MODE HOLD, in RUN. -/
def State.setHold (s : State) (n : Nat) : State :=
  if s.scn.mode ≠ .run ∨ !s.domainsReady ∨ s.str.gen = 0 then s.complete n rMODE []
  else
    let s := (s.overtakeMode).defer n 0x03 [2]
    State.takeHold { s with scn := { s.scn with holdReq := true } }

/-- SET_MODE STOP, in RUN or HOLD. -/
def State.setStop (s : State) (n : Nat) : State :=
  let s := (s.overtakeMode).defer n 0x03 [0]
  if s.scn.mode = .hold ∨ s.scn.phase = .pad then s.stopNow 0
  else { s with scn := { s.scn with stopReq := true } }

def execSetMode (s : State) : HostOut :=
  .next (s.onCmd 0x03 anyPkt fun s n ws =>
    let m := (pw ws 1).toNat
    if 2 < m then s.complete n rPARAM []
    else if m = s.scn.mode.code then s.complete n rOK []
    else if m = 1 then s.setRun n
    else if m = 2 then s.setHold n
    else s.setStop n)

/-! ### LOAD_CODE (R352, R354) -/

/-- A bank that LOAD_CODE names, as a block address and a domain. -/
def bankAt (b : Nat) : Nat := if b = 2 then 0x200000 else 0
def bankPd (b : Nat) : Nat := b + 3

/-- The range is refused by check 6 or as one outside the bank. -/
def State.loadParamBad (s : State) (ws : List Word) : Bool :=
  let b := (pw ws 1).toNat % 4
  let off := (pw ws 2).toNat
  let len := (pw ws 4).toNat
  decide (8 ≤ (pw ws 1).toNat) || !(b == 1 || b == 2) || decide (off % 8 ≠ 0) || decide (len % 8 ≠ 0) || decide (len < 8)
    || decide (196608 < len) || !s.xbRange (pw ws 3).toNat len

/-- The range leaves the bank or reaches a mapped-out half of it. -/
def State.loadOutside (s : State) (b off len : Nat) : Bool :=
  decide (0x200000 < off + len) || (s.mappedOut (bankAt b + 0x100000) && decide (0x100000 < off + len))

/-- The bank is active, or the target of a pending commit. -/
def State.bankActive (s : State) (b : Nat) : Bool := s.activePd (bankPd b)
def State.bankCommitted (s : State) (b : Nat) : Bool :=
  match s.olc.commit with
  | some c => (targetPds c.target).contains (bankPd b)
  | none => false

/-- The copy begins. REPLACE in STOP sets GEN to none first, and no generation is active from then on. -/
def State.beginLoad (s : State) (n : Nat) (ws : List Word) : State :=
  let b := (pw ws 1).toNat % 4
  let s : State := if bit (pw ws 1) 2 ∧ s.scn.mode = .stop then
      State.setReg { s with str := { s.str with gen := 0 } } Reg.OLC_GENID 0 else s
  (s.dropTarget b).defer n 0x08 [b, (pw ws 2).toNat, (pw ws 3).toNat, (pw ws 4).toNat]

def execLoadCode (s : State) : HostOut :=
  .next (s.onCmd 0x08 anyPkt fun s n ws =>
    let b := (pw ws 1).toNat % 4
    if s.loadParamBad ws then s.complete n rPARAM []
    else if s.deferred 0x08 then s.complete n rBUSY []
    else if s.loadOutside b (pw ws 2).toNat (pw ws 4).toNat then s.complete n rPARAM []
    else if s.bankActive b ∧ !(bit (pw ws 1) 2 ∧ s.scn.mode = .stop) then s.complete n rMODE []
    else if s.bankCommitted b then s.complete n rMODE []
    else if !s.serves (bankPd b) then (s.domainOff).complete n rABORTED []
    else (s.touch (bankPd b)).beginLoad n ws)

/-- The host loader has copied everything, or has met an error that it cannot correct. -/
def State.endLoad (s : State) (j : Job) : State :=
  match j.args with
  | [b, off, xb, len] =>
    let done (s : State) (code : Nat) : State := s.finishJob (fun j => j.op == 0x08) code
    if !s.serves (bankPd b) || !s.serves 8 then done s.domainOff rABORTED else
    let r := s.eccSweep (xbBase + xb) len 3
    if !r.1 then done r.2 rABORTED
    else done (r.2.overwrite (bankAt b + off) ((rangeFrom (xbBase + xb) len).map r.2.byte)) rOK
  | _ => s

def execCodeLoadComplete (s : State) : HostOut :=
  .next (match s.hst.jobs.find? fun j => j.op == 0x08 with
    | some j => s.endLoad j
    | none => s.staleReply 1)

/-! ### VERIFY_CODE (R353) -/

/-- Lantern can read the header of target t: the machine check that it meets otherwise. -/
def State.readTarget (s : State) (t n : Nat) : Bool × State :=
  if !(targetPds t).all s.serves then (false, s.lanternOff (genBase t))
  else ((targetPds t).foldl State.touch s).lanternSweep (genBase t) n

def execVerifyCode (s : State) : HostOut :=
  .next (s.onCmd 0x09 anyPkt fun s n ws =>
    let t := (pw ws 1).toNat
    if t = 0 ∨ 3 < t then s.complete n rPARAM []
    else if s.deferred 0x09 then s.complete n rBUSY []
    else
      let r := s.readTarget t 64
      if !r.1 then r.2.complete n rABORTED []
      else if !r.2.headerOk t then r.2.complete n rPARAM []
      else r.2.defer n 0x09 [t, ofBytes (wordsToBytes ((ws.drop 2).take 8))])

/-- The digest reaches a mapped-out half, which Lantern cannot read (R264). -/
def State.genCut (s : State) (t : Nat) : Bool :=
  let len := s.genLenOf t
  (s.mappedOut (genBase t + 0x100000) && decide (0x100000 < len))
    || (decide (t = 3) && s.mappedOut 0x300000 && decide (0x300000 < len))

/-- The digest of VERIFY_CODE is computed. -/
def execDigestComplete (s : State) : HostOut :=
  .next (match s.hst.jobs.find? fun j => j.op == 0x09 with
    | some j => match j.args with
      | [t, d] =>
        if !s.lanternRuns then s
        else if s.genCut t then
          ((if t = s.str.gen then s else s.dropTarget t).mcheck 2 none (genBase t + 0x100000)).finishJob
            (fun j => j.op == 0x09) rABORTED
        else s.verifyDigest t (toBytes d 32)
      | _ => s
    | none => s.staleReply 2)

/-! ### COMMIT_GENERATION, ABORT_GENERATION (R355 to R357) -/

/-- A synchronised partner holds the target verified with an equal digest; HELLO tells it (R355, R376). -/
def State.partnerHasTarget (s : State) (t : Nat) : Bool :=
  if !s.replicates then true else
  match s.bcn.hello with
  | none => false
  | some h =>
    let w := h.getD 0 0
    let d := digest8 (s.verified t)
    if t = 1 then bit w 22 && decide (h.getD 4 0 = d)
    else if t = 2 then bit w 23 && decide (h.getD 5 0 = d)
    else bit w 24 && decide (h.getD 4 0 = d)

/-- The first failing check of R355. DESIGN CHOICE: a commit of the joined target is refused where a half of a code bank is mapped out
(R263), as R355 refuses it for an active generation. DEDUCED: a target that Lantern cannot read for them is answered as VERIFY_CODE answers it (R353). -/
def State.commitRefusal (s : State) (t rep len : Nat) : Option Nat :=
  if s.olc.commit.isSome then some rMODE
  else if (s.verified t).isEmpty ∨ (t = 3 ∧ (s.str.gen ≠ 0 ∨ s.neverJoined)) then some rMODE
  else if !s.partnerHasTarget t then some rMODE
  else if len < 16480 ∨ !s.xbRange rep len then some rPARAM
  else if !(s.imageReadable t).1 then some rABORTED
  else if !s.commitContentOk t then some rPARAM
  else none

def execCommitGeneration (s : State) : HostOut :=
  .next (s.onCmd 0x0A anyPkt fun s n ws =>
    let t := (pw ws 1).toNat
    let rep := (pw ws 2).toNat
    let len := (pw ws 3).toNat
    if t = 0 ∨ 3 < t ∨ rep % 8 ≠ 0 then s.complete n rPARAM []
    else match s.commitRefusal t rep len with
      | some code => (if code = rABORTED then (s.imageReadable t).2 else s).complete n code []
      | none =>
        let s := s.defer n 0x0A [t]
        State.lanternSettle { s with olc := { s.olc with commit := some ⟨n, t, rep, len, s.clk.us⟩ } })

/-- A commit has waited for HTO ms, and the next H5 refuses it. -/
def execCommitTimeout (s : State) : HostOut :=
  .next (match s.olc.commit with
    | none => s
    | some c =>
      if s.scn.mode ≠ .run ∨ s.scn.phase ≠ .housekeeping ∨ !s.scn.h1Done ∨ !s.lanternRuns then s
      else (s.carry (c.at_ + 1000 * s.f Reg.OLC_CFG 15 0)).commitTimesOut)

def execAbortGeneration (s : State) : HostOut :=
  .next (s.onCmd 0x0B anyPkt fun s n ws =>
    if 1 < (pw ws 1).toNat then s.complete n rPARAM []
    else match s.olc.commit with
      | none => s.complete n rMODE []
      | some c =>
        let s := { s with olc := { s.olc with commit := none } }
        let s := s.finishJob (fun j => j.op == 0x0A) rABORTED
        (if bit (pw ws 1) 0 then s.dropTarget c.target else s).complete n rOK [])

/-! ### PATCH_CONST (R368) -/

def execPatchConst (s : State) : HostOut :=
  .next (s.onCmd 0x0C anyPkt fun s n ws =>
    let k := (pw ws 1).toNat
    if k = 0 ∨ 27 < k ∨ (constEntries ws).any constEntryBad then s.complete n rPARAM []
    else if 16 ≤ s.olc.consts.length then s.complete n rBUSY []
    else if s.str.gen = 0 then s.complete n rMODE []
    else if !((constEntries ws).all s.constEntryOk && constDigestOk ws) then s.complete n rPARAM []
    else
      let s := s.defer n 0x0C []
      State.lanternSettle { s with olc := { s.olc with consts := s.olc.consts ++ [(n, ws)] } })

/-! ### LOAD_PATCH (R67, R68) -/

/-- A blob is copied into staging; its reply waits for S5. -/
def State.stageBlob (s : State) (n off len : Nat) : State :=
  let r := s.xbCopy off len
  match r.1 with
  | none => r.2.complete n rABORTED []
  | some bs =>
    let s := r.2
    let s := s.overwrite (stagingAddr s.str.blobs.length) bs
    let s := { s with str := { s.str with
      blobs := s.str.blobs ++ [Blob.mk n len none], patchIds := putAt s.str.patchIds s.str.blobs.length (word32 bs 8) } }
    s.defer n 0x10 []

/-- LOAD_PATCH. DESIGN CHOICE: one of length 0 with FINAL offers no blob, so that after four blobs it is not the fifth LOAD_PATCH
that R68 refuses. -/
def execLoadPatch (s : State) : HostOut :=
  .next (s.onCmd 0x10 anyPkt fun s n ws =>
    let off := (pw ws 1).toNat
    let len := (pw ws 2).toNat
    let fin := (pw ws 3).toNat
    if off % 8 ≠ 0 ∨ 245760 < len ∨ 1 < fin ∨ (len ≠ 0 ∧ !s.xbRange off len) then s.complete n rPARAM []
    else if s.str.step ≠ 4 ∨ s.str.s4Ended then s.complete n rMODE []
    else if len = 0 then
      if fin = 0 then s.complete n rPARAM [] else (s.complete n rOK []).endS4
    else if 4 ≤ s.str.blobs.length then s.complete n rPARAM []
    else
      let s := s.stageBlob n off len
      if fin = 1 ∧ (s.slot n).st = 2 then s.endS4 else s)

/-! ### START_RECORD_RESTORE, START_RECORD_READ (R84, R85) -/

/-- The saved COUNTs take the place of the record's. -/
def State.restoreCounts (s : State) (b : List Byte) : State :=
  (List.range 10).foldl (fun (s : State) n => s.setStep n { s.stepRec n with count := byteAt b (8 + 4 * n) / 4 % 4 }) s

/-- A saved record is accepted. DEDUCED: of its MAPOUT only the bits of halves that may be mapped out are taken, as no other can be
1 (R263); reserved bits of its CONFIG read 0 (R7, R86). -/
def State.restoreRecord (s : State) (b : List Byte) : State :=
  let cfg : Word := BitVec.ofNat 32 (word32 b 48) &&& 0xFFFF000F
  let s := (s.restoreCounts b).setReg Reg.STR_CFG cfg
  let s := { s with str := { s.str with
    cfg := cfg, mapout := half b 54 &&& halfBits mappableHalves, lastRun := half b 76, prevMode := byteAt b 52 / 4 % 4
    startCount := (half b 4 + 1) % 65536, restored := true } }
  s

def execStartRecordRestore (s : State) : HostOut :=
  .next (s.onCmd 0x11 anyPkt fun s n ws =>
    let b := wordsToBytes ((ws.drop 1).take 32)
    if !s.str.cold ∨ s.str.firstDone ∨ s.str.step ≠ 4 ∨ s.str.s4Ended then s.complete n rMODE []
    else if crc32 (b.take 124) ≠ word32 b 124 ∨ word32 b 0 ≠ 0x00800001 then s.complete n rPARAM []
    else (s.restoreRecord b).complete n rOK [])

def execStartRecordRead (s : State) : HostOut :=
  .next (s.onCmd 0x12 anyPkt fun s n _ => s.complete n rOK (bytesToWords s.recordBytes))

/-! ### Forces (R284, R285, R416) -/

/-- A force change is staged, and applied at once outside RUN. -/
def State.stageForce (s : State) (x : ForceOp) : State :=
  let s := (s.touch 7)
  let s := { s with scn := { s.scn with staged := s.scn.staged ++ [x] } }
  match s.scn.mode with
  | .run => s
  | .hold => s.forceInHold
  | _ => s.engineForces

/-- The table would need a 1025th entry. -/
def State.forceFull (s : State) (x : ForceOp) : Bool := decide (1024 < (x.apply s.forcesStaged).length)

def execForceSet (s : State) : HostOut :=
  .next (s.onCmd 0x18 anyPkt fun s n ws =>
    let p := pf ws 1 20 0
    let x := ForceOp.set p (bit (pw ws 1) 24)
    if 0x80000 ≤ p ∨ pf ws 1 23 21 ≠ 0 ∨ pf ws 1 31 25 ≠ 0 then s.complete n rPARAM []
    else if !s.serves 7 then s.complete n rMODE []
    else if s.forceFull x then s.complete n rPARAM []
    else (s.stageForce x).complete n rOK [])

def execForceClear (s : State) : HostOut :=
  .next (s.onCmd 0x19 anyPkt fun s n ws =>
    let p := pf ws 1 20 0
    let all := bit (pw ws 1) 31
    if 0x80000 ≤ p ∨ pf ws 1 30 21 ≠ 0 ∨ (all ∧ p ≠ 0) then s.complete n rPARAM []
    else if !s.serves 7 then s.complete n rMODE []
    else (s.stageForce (if all then .clearAll else .clear p)).complete n rOK [])

/-- A record of FORCE_LIST. -/
def ForceEnt.bytes (f : ForceEnt) : List Byte := toBytes f.word 8 ++ toBytes f.fe.toNat 8 ++ toBytes f.fv.toNat 8

/-- Lantern reads the index as far as its first invalid halfword, then n entries (R258, R284, R416). DESIGN CHOICE: of an index
word that cannot be corrected the image word numbers are free values, and its VALID bits count as they stand. -/
def State.readForces (s : State) (n : Nat) : List ForceEnt × State :=
  let t := s.forces
  let r := s.lanternWords (indexWords t.length)
  let q := r.2.lanternWords ((List.range n).flatMap fun e => [forceAddr e, forceAddr e + 8])
  ((List.range n).map fun e =>
    ⟨(r.1.getD (e / 4) 0).toNat / 2 ^ (16 * (e % 4)) % 2 ^ 14, q.1.getD (2 * e) 0, q.1.getD (2 * e + 1) 0⟩, q.2)

/-- FORCE_LIST; it waits while the engine holds the image bank (R293). -/
def execForceList (s : State) : HostOut :=
  .next (if s.imageHeld then s else s.onCmd 0x1A anyPkt fun s n ws =>
    let off := (pw ws 1).toNat
    let len := (pw ws 2).toNat
    if len < 8 ∨ !s.xbRange off len then s.complete n rPARAM []
    else if !s.serves 7 then s.complete n rMODE []
    else
      let s := s.touch 7
      let k := s.forces.length
      let r := s.readForces (min k ((len - 8) / 24))
      let w := r.2.writeResult off (toBytes k 4 ++ toBytes s.scn.staged.length 4 ++ r.1.flatMap ForceEnt.bytes)
      if w.1 then w.2.complete n rOK [BitVec.ofNat 32 r.1.length, BitVec.ofNat 32 k] else w.2.complete n rABORTED [])

/-! ### EXPERT_UNLOCK (R418) -/

/-- FORM of an EXPERT_UNLOCK packet. -/
def expertForm (ws : List Word) : Nat := pf ws 1 1 0

/-- The challenge: the first 8 bytes of the digest of R418. -/
def State.challenge (s : State) (issued : Nat) : BitVec 64 :=
  digest8 (sha256 ((List.range 32).map Config.keyConstant ++ toBytes s.str.startCount 2 ++ toBytes issued 4
    ++ toBytes s.scn.cyc 7))

def execExpertChallenge (s : State) : HostOut :=
  .next (s.onCmd 0x41 (fun ws => expertForm ws == 0) fun s n ws =>
    if 4 ≤ (pw ws 1).toNat then s.complete n rPARAM [] else
    let k := (s.hst.issued + 1) % 2 ^ 32
    let c := s.challenge k
    let s := { s with hst := { s.hst with challenge := some c, issued := k } }
    s.complete n rOK [BitVec.ofNat 32 c.toNat, BitVec.ofNat 32 (c.toNat / 2 ^ 32)])

/-- The authorisation of FORM 1 keeps the rules of its layout. -/
def authOk (b : List Byte) : Bool :=
  decide (1 ≤ word32 b 8) && decide (word32 b 8 ≤ 86400) && decide (byteAt b 12 ≤ 3)
    && ((b.drop 13).take 3).all (· == 0)

/-- Bytes as the arguments of a deferred command, and back. -/
def bytesArgs (b : List Byte) : List Nat := b.map (·.toNat)
def argsBytes (l : List Nat) : List Byte := l.map fun n => BitVec.ofNat 8 n

/-- FORM 1 is deferred while its authorisation is checked; the first spends the challenge, whose comparison goes with it. -/
def State.spendChallenge (s : State) (n : Nat) (b : List Byte) : State :=
  let good := decide (s.hst.challenge = some (dwordAt b 0))
  State.defer { s with hst := { s.hst with challenge := none } } n 0x41 (good.toNat :: bytesArgs b)

/-- The check of a FORM 1 ends: expert access is unlocked, or the reply is AUTH_FAIL. -/
def State.unlockChecked (s : State) (args : List Nat) : State :=
  let b := argsBytes args.tail
  let good := decide (args.headD 0 = 1)
    && decide (s.keyCheck (byteAt b 12) ((b.drop 16).take 64) ((b.drop 80).take 64) (b.take 80) = 0)
  let s := if good then { s with hst := { s.hst with expertUntil := some (s.clk.us + 1000000 * word32 b 8) } } else s
  s.finishJob (fun j => j.op == 0x41) (if good then rOK else rAUTH)

def execExpertUnlock (s : State) : HostOut :=
  .next (s.onCmd 0x41 (fun ws => expertForm ws == 1 || expertForm ws == 3) fun s n ws =>
    let b := wordsToBytes ((ws.drop 2).take 36)
    if expertForm ws = 3 ∨ 4 ≤ (pw ws 1).toNat ∨ !authOk b then s.complete n rPARAM []
    else if s.deferred 0x41 then s.complete n rBUSY []
    else if !s.inRun 11 then s.complete n rMODE []
    else s.spendChallenge n b)

def execExpertLock (s : State) : HostOut :=
  .next (s.onCmd 0x41 (fun ws => expertForm ws == 2) fun s n ws =>
    if 4 ≤ (pw ws 1).toNat then s.complete n rPARAM []
    else ({ s with hst := { s.hst with expertUntil := none } }).complete n rOK [])

/-- REMAIN reaches 0. -/
def execExpertExpiry (s : State) : HostOut :=
  .next (match s.hst.expertUntil with
    | none => s
    | some t =>
      let s := s.carry t
      { s with hst := { s.hst with expertUntil := none } })

/-! ### POWER_STATE (R419, R53) -/

/-- Fields of a POWER_STATE packet. -/
def pwrDomain (ws : List Word) : Nat := pf ws 1 3 0
def pwrTarget (ws : List Word) : Nat := pf ws 1 5 4

/-- A domain request: it takes effect, and its reply waits for PWR_STAT. -/
def State.askDom (s : State) (n d t : Nat) : State :=
  let s := ((s.setF Reg.PWR_CTRL (2 * d + 1) (2 * d) t).requestDom d t).deliverAborted
  if (s.dom d).st.code = t ∧ (s.dom d).st ≠ .dozing then s.complete n rOK [] else s.defer n 0x48 [d, t]

def execPowerState (s : State) : HostOut :=
  .next (s.onCmd 0x48 (fun ws => pwrDomain ws != 15) fun s n ws =>
    let d := pwrDomain ws
    let t := pwrTarget ws
    if d = 0 ∨ 11 < d ∨ t = 3 ∨ 64 ≤ (pw ws 1).toNat then s.complete n rPARAM []
    else if s.hst.jobs.any (fun j => j.op == 0x48 && j.args.headD 0 == d) then s.complete n rBUSY []
    else if s.refusesDom d t then s.complete n rMODE []
    else s.askDom n d t)

def execBlockSleep (s : State) : HostOut :=
  .next (s.onCmd 0x48 (fun ws => pwrDomain ws == 15) fun s n ws =>
    if 64 ≤ (pw ws 1).toNat then s.complete n rPARAM []
    else if s.scn.mode ≠ .stop ∨ bit s.clk.lost 7 then s.complete n rMODE []
    else (s.complete n rOK []).askSleep (some n))

/-! ### FAULT_COUNTERS (R461) -/

def execFaultCounters (s : State) : HostOut :=
  .next (s.onCmd 0x50 anyPkt fun s n ws =>
    if 1 < (pw ws 1).toNat then s.complete n rPARAM []
    else
      let body := (List.range 32).map s.fltCnt
      (if bit (pw ws 1) 0 then s.clearFaults else s).complete n rOK body)

end Sys2Proof.Machine
end

