-- ==== Sys2Proof/Machine/HostCfg.lean ====
section
/-! DEFINITION. The host commands of stations, Beat and governor (R302, R303, R313, R317, R345, R417), of pair and cascade
(R400), of the keeper's log (R452 to R455) and of debug (R430, R431). -/

namespace Sys2Proof.Machine

/-! ### Stations (R301 to R303, R313, R317) -/

/-- Work is staged; outside RUN Lantern carries out at once what its rule lets it. -/
def State.stage (s : State) (x : Staged) : State :=
  State.lanternSettle { s with flk := { s.flk with staged := s.flk.staged ++ [x] } }

def execStationConfig (s : State) : HostOut :=
  .next (s.onCmd 0x20 anyPkt fun s n ws =>
    let off := (pw ws 1).toNat
    let len := (pw ws 2).toNat
    if !s.xbRange off len then s.complete n rPARAM [] else
    let r := s.xbCopy off len
    match r.1 with
    | none => r.2.complete n rABORTED []
    | some b =>
      if !r.2.cbAccepted b then r.2.complete n rPARAM []
      else (r.2.stage (.station b)).complete n rOK [])

/-- The data words of a STATION_FEED packet. -/
def feedData (ws : List Word) (k : Nat) : List DWord :=
  (List.range k).map fun j => BitVec.ofNat 64 ((pw ws (5 + 2 * j)).toNat + (pw ws (6 + 2 * j)).toNat * 2 ^ 32)

/-- An earlier feed staged for the station is replaced, and counted as superseded. -/
def State.replaceFeed (s : State) (k : Nat) : State :=
  let mine (x : Staged) : Bool := match x with
    | .feed n _ _ _ => n == k
    | _ => false
  if !s.flk.staged.any mine then s else
  let s := { s with flk := { s.flk with staged := s.flk.staged.filter fun x => !mine x } }
  match s.hf k with
  | none => s
  | some x => s.setHf k (some { x with superseded := satInc x.superseded 0xFFFF })

def execStationFeed (s : State) : HostOut :=
  .next (s.onCmd 0x21 anyPkt fun s n ws =>
    let k := (pw ws 1).toNat
    let w := (pw ws 4).toNat
    if 512 ≤ k ∨ 32 ≤ w then s.complete n rPARAM [] else
    match s.cfgStaged.hf k with
    | none => s.complete n rPARAM []
    | some x =>
      if x.wi ≠ w then s.complete n rPARAM []
      else if x.st = .failed then s.complete n rMODE []
      else ((s.replaceFeed k).stage (.feed k (pw ws 2).toNat (pw ws 3).toNat (feedData ws w))).complete n rOK [])

/-- The two words of a 64-bit word, low word first. -/
def twoWords (x : DWord) : List Word := [BitVec.ofNat 32 x.toNat, BitVec.ofNat 32 (x.toNat / 2 ^ 32)]

/-- What a station's record is made of: the image words that are read for it, the first of them its S word, and the four words
that stand behind that (R317). -/
def State.statusSource (s : State) (w : Word) : Option (List Nat × List Word) :=
  if bit w 31 then
    if fld w 30 9 ≠ 0 then none else (s.hf (fld w 8 0)).map fun x =>
      (shStatAddr (512 + fld w 8 0) :: (List.range x.wq).map fun j => shOutAddr (x.qbase + j),
        [BitVec.ofNat 32 x.accepted, BitVec.ofNat 32 (x.stale + x.superseded * 2 ^ 16), BitVec.ofNat 32 s.scn.outCyc, 0])
  else if fld w 30 8 ≠ 0 then none
  else (s.stn (fld w 7 0)).map fun x =>
    ([shStatAddr (256 + fld w 7 0)], [BitVec.ofNat 32 (min x.miss 255 + x.ferr * 256),
      s.replyReg (Reg.FLK_LROUND + 0x20 * (fld w 7 5)), BitVec.ofNat 32 s.scn.outCyc, 0])

/-- STATION_STATUS; it waits while the engine holds the image bank. -/
def execStationStatus (s : State) : HostOut :=
  .next (if s.imageHeld then s else s.onCmd 0x22 anyPkt fun s n ws =>
    match s.statusSource (pw ws 1) with
    | none => s.complete n rPARAM []
    | some (image, mid) =>
      if !s.serves 7 then (s.lanternOff (shStatAddr 0)).complete n rABORTED []
      else
        let r := (s.touch 7).lanternWords image
        r.2.complete n rOK (twoWords (r.1.headD 0) ++ mid ++ r.1.tail.flatMap twoWords))

/-! ### BEAT_CONFIG, GOVERNOR_CONFIG (R345, R417) -/

/-- A write of a packet names a register whose fields are all RW, with reserved bits 0 and a value in its ranges. -/
def State.entryOk (s : State) (page : Nat) (e : Word × Word) : Bool :=
  let off := e.1.toNat
  let a := pageBase page + off
  let fs := fieldsAt a
  decide (off < 0x1000) && decide (off % 4 = 0) && !fs.isEmpty && fs.all (fun f => f.acc == .RW)
    && !(page == 0x08 && canonOff page off == 0x104)
    && decide (e.2 &&& ~~~ (if a = Reg.GOV_TDATA then 0x07FFFFFF else rwMask a) = 0)
    && decide (legal a s.chainId (s.reg a) (written (s.reg a) e.2 fs) = written (s.reg a) e.2 fs)

/-- A list without repeats. -/
def distinct : List Nat → Bool
  | [] => true
  | x :: t => !t.contains x && distinct t

/-- No point stands in two member entries, or in two bindings. -/
def State.pointsDistinct (s : State) : Bool :=
  distinct ((s.gov.tab.filter fun e => isMember e.2).map fun e => fld e.2 17 0)
    && distinct (((List.range 256).filter fun k => s.f (Reg.BEA_BIND + 4 * k) 23 23 == 1).map fun k =>
      s.f (Reg.BEA_BIND + 4 * k) 17 0)

/-- The pages as a packet will leave them, after what stands staged. -/
def State.afterPacket (s : State) (op : Nat) (ws : List Word) : State :=
  s.packetsStaged.applyWrites (packetPage op) (packetWrites op ws)

/-- A configuration packet from check 6 on. -/
def State.cfgPacket (s : State) (op n : Nat) (ws : List Word) : State :=
  let k := (pw ws 1).toNat
  if k = 0 ∨ 31 < k ∨ !(regEntries ws).all (s.entryOk (packetPage op)) ∨ !(s.afterPacket op ws).pointsDistinct then
    s.complete n rPARAM []
  else
    let l := packetWrites op ws
    (s.stage (if op = 0x28 then .beat l else .gov l)).complete n rOK []

def execBeatConfig (s : State) : HostOut := .next (s.onCmd 0x28 anyPkt fun s n ws => s.cfgPacket 0x28 n ws)
def execGovernorConfig (s : State) : HostOut := .next (s.onCmd 0x29 anyPkt fun s n ws => s.cfgPacket 0x29 n ws)

/-! ### Pair and cascade (R400) -/

/-- A value is 0, which keeps the current one, or lies in a range. -/
def zeroOr (v lo hi : Nat) : Bool := decide (v = 0) || (decide (lo ≤ v) && decide (v ≤ hi))

def execStandbyConfig (s : State) : HostOut :=
  .next (s.onCmd 0x30 anyPkt fun s n ws =>
    let t := pw ws 2
    let r := pw ws 3
    if 4 ≤ (pw ws 1).toNat ∨ !zeroOr (fld t 15 0) 100 65535 ∨ !zeroOr (fld t 31 16) 100 65535
        ∨ !zeroOr (fld r 15 0) 64 65535 ∨ fld r 31 24 ≠ 0 then s.complete n rPARAM []
    else if s.scn.mode ≠ .stop then s.complete n rMODE []
    else
      let s := ((s.setReg Reg.BCN_TIME (s.newBcnTime t)).setReg Reg.BCN_REPL (s.newBcnRepl r)).setF Reg.BCN_CFG 1 0 (pw ws 1).toNat
      (s.setRole).complete n rOK [])

/-- A hand-off of a synchronised pair is asked for; it waits for TAKEN. -/
def State.askHandoff (s : State) (n : Nat) : State :=
  let s := s.defer n 0x31 []
  { s with bcn := { s.bcn with handoff := true } }

def execTakeover (s : State) : HostOut :=
  .next (s.onCmd 0x31 anyPkt fun s n ws =>
    let cold := bit (pw ws 1) 0
    if 1 < (pw ws 1).toNat then s.complete n rPARAM []
    else if cold then
      if s.role = 2 ∧ s.scn.mode = .stop then
        ({ s with bcn := { s.bcn with role := 1 }, car := { s.car with evtHeld := true } }).complete n rOK []
      else s.complete n rMODE []
    else if s.deferred 0x31 then s.complete n rBUSY []
    else if (s.role = 1 ∧ s.bcn.sync) ∨ s.role = 4 then s.askHandoff n
    else s.complete n rMODE [])

def execChainConfig (s : State) : HostOut :=
  .next (s.onCmd 0x32 anyPkt fun s n ws =>
    let c := (pw ws 1).toNat
    let m := (pw ws 2).toNat
    if 512 ≤ c ∨ !bit (pw ws 1) 0 ∨ !bit (pw ws 1) s.chainId ∨ 8192 < m + 64 then s.complete n rPARAM []
    else if s.scn.mode ≠ .stop then s.complete n rMODE []
    else
      let s := (s.setF Reg.CHN_CFG 8 0 c).setF Reg.CHN_MBASE 12 0 m
      (s.setReg Reg.CHN_TIME (s.newChnTime (pw ws 3))).complete n rOK [])

/-! ### The keeper's log (R452 to R455) -/

def execLogFreeze (s : State) : HostOut := .next (s.onCmd 0x38 anyPkt fun s n _ => (s.freeze).complete n rOK [])

def execLogRead (s : State) : HostOut :=
  .next (s.onCmd 0x39 anyPkt fun s n ws =>
    let off := (pw ws 1).toNat
    let k := (pw ws 2).toNat
    if k = 0 ∨ 256 < k ∨ !s.xbRange off (64 * k) then s.complete n rPARAM [] else
    let r := s.logCopy s.logHead (min k s.logCount) 0 0 16
    let w := r.2.writeResult off (r.1.flatMap id)
    if w.1 then w.2.complete n rOK [BitVec.ofNat 32 r.1.length, w.2.reg Reg.LOG_LOST] else w.2.complete n rABORTED [])

def execLogThaw (s : State) : HostOut :=
  .next (s.onCmd 0x3B anyPkt fun s n _ =>
    if bit (s.reg Reg.LOG_STAT) 1 then s.complete n rMODE []
    else if bit (s.reg Reg.LOG_STAT) 0 then ((s.setF Reg.LOG_STAT 0 0 0).thaw).complete n rOK []
    else s.complete n rOK [])

/-- The layout rules of an authorisation of LOG_CLEAR. -/
def clearAuthOk (b : List Byte) : Bool :=
  decide (b.length = 144) && decide (word32 b 0 = 0x434C474B) && decide (half b 4 = 1) && decide (byteAt b 6 ≤ 3)
    && decide (byteAt b 7 = 0) && decide (half b 14 = 0)

/-- The keys and signature of a 144-byte authorisation or certificate. -/
def State.authorised (s : State) (b : List Byte) : Bool :=
  decide (s.keyCheck (byteAt b 6) ((b.drop 16).take 64) ((b.drop 80).take 64) (b.take 80) = 0)

/-- The writer clears the ring and thaws. -/
def State.clearLog (s : State) (slot : Nat) : State :=
  let s := (s.clearBytes 0x750000 0x753FFF).setReg Reg.LOG_HEAD 0
  let s := s.ringAppend (s.logRec 0x8060 (toBytes (s.reg Reg.LOG_SEQ).toNat 4 ++ [BitVec.ofNat 8 slot]))
  (s.setF Reg.LOG_STAT 0 0 0).thaw

/-- The log is frozen by LOG_FREEZE alone, and PD11 is in RUN: check 1 of R455. -/
def State.clearable (s : State) : Bool := decide (s.f Reg.LOG_STAT 1 0 = 1) && s.inRun 11

/-- The reply of the first check of R455 that fails. -/
def State.clearRefusal (s : State) (b : List Byte) : Option Nat :=
  if !s.clearable then some rMODE
  else if !clearAuthOk b then some rPARAM
  else if word32 b 8 ≠ (s.reg Reg.LOG_SEQ).toNat ∨ half b 12 ≠ s.str.startCount then some rMODE
  else if !s.authorised b then some rAUTH
  else none

/-- LOG_CLEAR is deferred while its authorisation is checked. What check 1 refuses as it is interpreted is answered at once. -/
def execLogClear (s : State) : HostOut :=
  .next (s.onCmd 0x3A anyPkt fun s n ws =>
    let off := (pw ws 1).toNat
    let len := (pw ws 2).toNat
    if !s.xbRange off len then s.complete n rPARAM []
    else if s.deferred 0x3A then s.complete n rBUSY []
    else if !s.clearable then s.complete n rMODE []
    else
      let r := s.xbCopy off len
      match r.1 with
      | none => r.2.complete n rABORTED []
      | some b => r.2.defer n 0x3A (bytesArgs b))

/-- The check of a LOG_CLEAR ends. -/
def State.clearChecked (s : State) (args : List Nat) : State :=
  let b := argsBytes args
  let done (s : State) (code : Nat) : State := s.finishJob (fun j => j.op == 0x3A) code
  match s.clearRefusal b with
  | some code => done s code
  | none => done (s.clearLog (byteAt b 6)) rOK

/-! ### DEBUG_GRANT (R430, R431) -/

/-- The rules of a certificate. -/
def certOk (b : List Byte) : Bool :=
  decide (b.length = 144) && decide (word32 b 0 = 0x4744424B) && decide (half b 4 = 1) && decide (byteAt b 6 ≤ 3)
    && decide (byteAt b 7 ≤ 2) && decide (byteAt b 8 ≤ 1) && ((b.drop 9).take 3).all (· == 0) && decide (half b 12 ≤ half b 14)

/-- The greatest ACTION that a level permits (R429, R440). -/
def actionMost (level : Nat) : Nat := if level = 0 then 0 else if level = 1 then 2 else 4

/-- Comparator ACTIONs that the level no longer permits become off. -/
def State.trimActions (s : State) (level : Nat) : State :=
  (List.range 8).foldl (fun (s : State) k =>
    if actionMost level < s.f (cmpReg k 0) 2 0 then s.setF (cmpReg k 0) 2 0 0 else s) s

/-- A certificate is accepted: its grant replaces the one in force. It may enable the trace port (R442). -/
def State.applyGrant (s : State) (b : List Byte) : State :=
  let level := byteAt b 7
  let old := s.dbgLevel
  let was := s.traceOn
  let s := { s with dbg := { s.dbg with
    grant := some ⟨level, byteAt b 8 % 2 == 1, byteAt b 6, half b 14⟩ } }
  let s := s.fire 117
  let s := if !was && s.traceOn then s.traceSync else s
  if old = 2 ∧ level < 2 then (if s.core.halt = .debug then s.endHalt else s).trimActions level else s

/-- The start sequence has ended, and PD11 is in RUN: check 1 of R431. -/
def State.grantable (s : State) : Bool := decide (s.str.step = 15) && s.inRun 11

/-- The reply of the first check of R431 that fails. -/
def State.grantRefusal (s : State) (b : List Byte) : Option Nat :=
  if !s.grantable then some rMODE
  else if !certOk b then some rPARAM
  else if s.str.startCount < half b 12 ∨ half b 14 < s.str.startCount then some rMODE
  else if !s.authorised b then some rAUTH
  else none

/-- DEBUG_GRANT is deferred while its certificate is checked. What check 1 refuses as it is interpreted is answered at once. -/
def execDebugGrant (s : State) : HostOut :=
  .next (s.onCmd 0x40 anyPkt fun s n ws =>
    let off := (pw ws 1).toNat
    let len := (pw ws 2).toNat
    if !s.xbRange off len then s.complete n rPARAM []
    else if s.deferred 0x40 then s.complete n rBUSY []
    else if !s.grantable then s.complete n rMODE []
    else
      let r := s.xbCopy off len
      match r.1 with
      | none => r.2.complete n rABORTED []
      | some b => r.2.defer n 0x40 (bytesArgs b))

/-- The check of a DEBUG_GRANT ends. -/
def State.grantChecked (s : State) (args : List Nat) : State :=
  let b := argsBytes args
  let done (s : State) (code : Nat) : State := s.finishJob (fun j => j.op == 0x40) code
  match s.grantRefusal b with
  | some code => done s code
  | none => done (s.applyGrant b) rOK

/-! ### The share slot (R199, R412) -/

/-- A deferred command whose authorisation Lantern checks is completed. -/
def State.jobChecked (s : State) (j : Job) : State :=
  match j.op with
  | 0x3A => s.clearChecked j.args
  | 0x40 => s.grantChecked j.args
  | 0x41 => s.unlockChecked j.args
  | _ => s

/-- The checks of authorisations that are deferred end (R412). -/
def State.checkJobs (s : State) : State := s.hst.jobs.foldl State.jobChecked s

/-- A share slot (R199): with work pending, at a boundary that R197 admits and where no context in deterministic mode
runs, Lantern has the core, restarts the watchdog and, outside RUN, carries out what was staged; the checks of authorisations that
were deferred end in it. Its other work follows by commands of its own. The entries at vectors 1 and 5 that are due come first, and
Lantern's own GM masks it (R223). -/
def execLanternShareSlot (s : State) : HostOut :=
  .next (if s.lanternWork ∧ s.lanternTurn ∧ !s.mcheckDue ∧ !s.lanternMasked ∧ !s.core.lantern.slot
      ∧ !(s.housekeepingDue && !s.follows) then (s.traceLantern 4).wdtRestart.lanternSettle.checkJobs else s)

end Sys2Proof.Machine
end

