-- ==== Sys2Proof/Machine/DebugRows.lean ====
section
/-! DEFINITION. The debug unit's rows (R425 to R438): the connection, requests and their answers, the halt and the step; and CHIME
(R147, R442). -/

namespace Sys2Proof.Machine

abbrev DbgOut := Host.Outcome State Fault Refusal

/-! ### The connection (R425, R426) -/

/-- A sync of a low time in ns; T is one sixteenth of it. -/
def execClapSync (lowNs : Nat) (s : State) : DbgOut :=
  .next (if !s.inRun 11 ∨ lowNs < 4000 ∨ 32000 < lowNs then s
    else { s with dbg := { s.dbg with conn := true, unitT := lowNs } })

/-- The connection is lost; a debug halt and the grant stay. -/
def State.disconnect (s : State) : State := { s with dbg := { s.dbg with conn := false } }

/-- A break. -/
def execClapBreak (s : State) : DbgOut := .next s.disconnect

/-- A high time longer than 1024T within a frame. -/
def execClapIdleTimeout (s : State) : DbgOut := .next s.disconnect

/-! ### Requests and their answers (R427, R428) -/

/-- A response is sent; data only with OK. -/
def State.dbgRespond (s : State) (seq ack : Nat) (d : Option Word) : State :=
  { s with dbg := { s.dbg with tx := some (seq, ack, if ack = ackOK then d else none) } }

/-- The bytes of the last response: ACK and SEQ, the data, and their CRC (R427). -/
def State.dbgResponse (s : State) : List Byte :=
  match s.dbg.tx with
  | none => []
  | some (seq, ack, d) =>
    let b := BitVec.ofNat 8 (ack + 16 * seq) :: (match d with | some w => toBytes w.toNat 4 | none => [])
    b ++ [BitVec.ofNat 8 (crc8 b)]

/-- The response of the request in progress is known. -/
def State.finishDbg (s : State) (ack : Nat) (d : Option Word) : State :=
  match s.dbg.req with
  | none => s
  | some q => { s with dbg := { s.dbg with resp := some (ack, d) } }.dbgRespond q.seq ack d

/-- A request: one that repeats the previous one gets its response again, or WAIT; any other is performed by `f`, which
answers with what it has found, or none while it has not completed. An access that has stalled is taken up again. -/
def State.dbgRequest (s : State) (q : DbgReq) (f : State → Option (Nat × Option Word) × State) : State :=
  if !s.inRun 11 || !s.dbg.conn then s
  else if s.dbg.req = some q ∧ s.dbg.resp.isSome then s.dbgRespond q.seq (s.dbg.resp.getD (0, none)).1 (s.dbg.resp.getD (0, none)).2
  else if s.dbg.req = some q ∧ !q.isAccess then s.dbgRespond q.seq ackWAIT none
  else
    let r := f { s with dbg := { s.dbg with req := some q, resp := none } }
    match r.1 with
    | some a => r.2.finishDbg a.1 a.2
    | none => r.2.dbgRespond q.seq ackWAIT none

/-- What an operation does that needs a level. -/
def State.atLevel (s : State) (level : Nat) (f : State → Option (Nat × Option Word) × State) : Option (Nat × Option Word) × State :=
  if s.dbgLevel < level then answered ackDENIED none s else f s

/-- The core has stopped for good: HALT, STEP and RESUME are refused (R445). -/
def State.stoppedForGood (s : State) : Bool := decide (s.core.halt = .stranded) || decide (s.core.halt = .lockup)

/-- A halt request waits to be taken; in a debug halt it is answered at once. -/
def State.dbgHalt (s : State) : Option (Nat × Option Word) × State :=
  if s.stoppedForGood then answered ackDENIED none s
  else if s.core.halt = .debug then answered ackOK none s
  else (none, { s with dbg := { s.dbg with hreq := some (s.dbg.hreq.getD (0, 0)) } })

/-- RESUME. -/
def State.dbgResume (s : State) : Option (Nat × Option Word) × State :=
  if s.stoppedForGood then answered ackDENIED none s else answered ackOK none s.endHalt

/-- The context that a step runs: that of the halt, or the one that Carillon selects. -/
def State.stepCtx (s : State) : Option Nat := s.dbg.ctx.orElse fun _ => s.selected

/-- STEP: the context gets the core until the step's end; one that comes to an empty core is a switch (R443). -/
def State.beginStepOf (s : State) (n : Nat) : State :=
  let s := if s.car.running = some n then s else
    ((s.leaveCore).putOnCore n).traceSwitch (ctxByte (some n)) (ctxByte s.car.running) (s.ctx n).pc.toNat
  { s with dbg := { s.dbg with step := some n, stepDone := false, ctx := some n } }

/-- STEP. -/
def State.dbgStep (s : State) : Option (Nat × Option Word) × State :=
  if s.core.halt ≠ .debug ∨ s.dbg.back ≠ .run ∨ s.scn.phase ≠ .program ∨ s.dbg.step.isSome then answered ackDENIED none s
  else match s.stepCtx with
    | none => answered ackDENIED none s
    | some n => (none, s.beginStepOf n)

/-- What a request's operation does (R427). -/
def State.dbgPerform (q : DbgReq) (s : State) : Option (Nat × Option Word) × State :=
  match q.op with
  | 0 => answered ackOK (some (s.shown Reg.SYS_ID)) s
  | 1 => answered ackOK (some (s.shown Reg.DBG_STAT)) s
  | 5 => s.atLevel 2 State.dbgHalt
  | 6 => s.atLevel 2 State.dbgResume
  | 7 => s.atLevel 2 State.dbgStep
  | _ => s.dbgAccess q

/-- The bytes of a request before its CRC: OP and SEQ, ADDR, DATA (R427). -/
def DbgReq.body (q : DbgReq) : List Byte :=
  BitVec.ofNat 8 (q.op + 16 * q.seq) :: ((if q.isAccess then toBytes q.addr 4 else [])
    ++ (if q.op = 4 then toBytes q.data.toNat 4 else []))

/-- The bytes of a request as its probe sends them. -/
def DbgReq.bytes (q : DbgReq) : List Byte := q.body ++ [BitVec.ofNat 8 (crc8 q.body)]

/-- The request that bytes spell; none where their CRC is wrong or OP is reserved. -/
def reqOf (bs : List Byte) : Option DbgReq :=
  let b := bs.dropLast
  let q : DbgReq := ⟨byteAt b 0 / 16, byteAt b 0 % 16, word32 b 1, BitVec.ofNat 32 (word32 b 5)⟩
  if bs.getLast? ≠ some (BitVec.ofNat 8 (crc8 b)) ∨ 8 ≤ q.op then none
  else some { q with addr := if q.isAccess then q.addr else 0, data := if q.op = 4 then q.data else 0 }

/-- The bytes of a request arrive. -/
def State.dbgBytes (s : State) (bs : List Byte) : State :=
  match reqOf bs with
  | some q => s.dbgRequest q (State.dbgPerform q)
  | none => if !s.inRun 11 || !s.dbg.conn then s else s.dbgRespond (byteAt bs 0 / 16) ackPROTO none

/-- A request arrives as its probe sends it. -/
def State.dbgLine (s : State) (q : DbgReq) : State := s.dbgBytes q.bytes

/-- A request with a wrong CRC or a reserved OP is not performed: the row names only its SEQ, and a byte 0 with OP 8 stands for all of
them. -/
def execClapBadRequest (seq : Nat) (s : State) : DbgOut :=
  let b : List Byte := [BitVec.ofNat 8 (8 + 16 * (seq % 16))]
  .next (s.dbgBytes (b ++ [BitVec.ofNat 8 (crc8 b)]))

def execDbgId (seq : Nat) (s : State) : DbgOut := .next (s.dbgLine ⟨seq % 16, 0, 0, 0⟩)

def execDbgStatus (seq : Nat) (s : State) : DbgOut := .next (s.dbgLine ⟨seq % 16, 1, 0, 0⟩)

/-! ### Reads and writes (R432 to R434) -/

def execDbgRead (seq space addr : Nat) (s : State) : DbgOut :=
  .next (s.dbgLine ⟨seq % 16, 2, addr % 2 ^ 28 + space % 16 * 2 ^ 28, 0⟩)

def execDbgReadLive (seq space addr : Nat) (s : State) : DbgOut :=
  .next (s.dbgLine ⟨seq % 16, 3, addr % 2 ^ 28 + space % 16 * 2 ^ 28, 0⟩)

/-- WRITE: at the full level, and at non-invasive for the debug registers that R429 names. -/
def execDbgWrite (seq space addr : Nat) (v : Word) (s : State) : DbgOut :=
  .next (s.dbgLine ⟨seq % 16, 4, addr % 2 ^ 28 + space % 16 * 2 ^ 28, v⟩)

/-! ### Halt, resume and step (R435 to R438) -/

def execDbgHalt (seq : Nat) (s : State) : DbgOut := .next (s.dbgLine ⟨seq % 16, 5, 0, 0⟩)

def execDbgResume (seq : Nat) (s : State) : DbgOut := .next (s.dbgLine ⟨seq % 16, 6, 0, 0⟩)

def execDbgStep (seq : Nat) (s : State) : DbgOut := .next (s.dbgLine ⟨seq % 16, 7, 0, 0⟩)

/-- A halt may be taken now (R435): not in a lock, before a delay slot, within an instruction that holds, between a fault's frame
and its handler's first instruction (R230), its entry's safe point apart (R216), or while Lantern's own GM is 1. -/
def State.haltFree (s : State) : Bool :=
  decide (s.core.halt = .none) && s.core.held.isNone && !s.lanternMasked && match s.scn.mode with
    | .run => decide (s.scn.phase = .program) && (match s.car.running with
      | none => true
      | some n => decide ((s.ctx n).lkc = 0) && decide ((s.ctx n).slot = .none) && (!(s.ctx n).chain || (s.ctx n).yielded))
    | .hold => true
    | .stop => true
    | .none => false

/-- DEBUG_HALT_TAKEN: the store buffer drains and the core stops. -/
def execDebugHaltTaken (s : State) : DbgOut :=
  .next (match s.dbg.hreq with
    | none => s
    | some r => if !s.haltFree then s else
      s.unlessDrained ((s.drainAll).cancelYounger.enterHalt r.1 r.2).dbgRetry)

/-- STEP_COMPLETE: the step has reached its end, or its context has left the core. A comparator's halt that a lock or a delay slot has held
off within the step is taken with it, with cause 1 (R445). -/
def execStepComplete (s : State) : DbgOut :=
  .next (match s.dbg.step with
    | none => s
    | some n =>
      if !s.dbg.stepDone ∧ s.car.running = some n then s else
      let s0 := s
      let s := (s.drainAll).landRunning
      let r := s.dbg.hreq.getD (2, 0)
      let s := { s with dbg := { s.dbg with hreq := none, step := none, stepDone := false, ctx := s.car.running } }
      s0.unlessDrained ((s.traceHalt r.1 r.2).storeDbg 7))

/-! ### CHIME (R147, R442) -/

/-- CHIME n ( x -- ): a packet while the port is enabled and the chime is; the write is discarded otherwise. -/
def execChime (n : BitVec 5) (s : State) : DbgOut :=
  .next (s.runNext { code := 0x0320 + n.toNat, k4ill := true } fun c s => match s.popN c 1 with
    | .error t => .error t
    | .ok (xs, s) =>
      .ok (if bit (s.reg Reg.DBG_CHIMEEN) n.toNat then
          s.emit 1 (BitVec.ofNat 8 n.toNat :: BitVec.ofNat 8 c :: toBytes (xs.getD 0 0).toNat 4)
        else s))

end Sys2Proof.Machine
end

