-- ==== Sys2Proof/Machine/IsaAcc.lean ====
section
/-! DEFINITION. Fixed point and the accumulator (R115 to R118, R138). Every code is illegal in a KX4 context (R159). -/

namespace Sys2Proof.Machine

/-- A code of the range 0x0100 to 0x01FF. -/
def accInsn (code : Nat) : Insn := { code := code, k4ill := true }

/-- An operation that pops k operands and replaces A and SW. -/
def State.accOp (s : State) (code k : Nat) (f : Ctx → List Word → BitVec 40 × Word) : State :=
  s.runNext (accInsn code) fun n s => match s.popN n k with
    | .error t => .error t
    | .ok (xs, s) => .ok (s.updCtx n fun c => { c with acc := (f c xs).1, sw := (f c xs).2 })

def execAclr (s : State) : Out := .next (s.accOp 0x0100 0 fun c _ => (0, c.sw))
def execAld (s : State) : Out := .next (s.accOp 0x0101 1 fun c xs => ((xs.getD 0 0).signExtend 40, c.sw))
def execAadd (s : State) : Out :=
  .next (s.accOp 0x0102 1 fun c xs => accWrap c.sw (c.acc.toInt + (xs.getD 0 0).toInt))
def execAadds (s : State) : Out :=
  .next (s.accOp 0x0103 1 fun c xs => accClamp c.sw (c.acc.toInt + (xs.getD 0 0).toInt))
def execMac (s : State) : Out :=
  .next (s.accOp 0x0104 2 fun c xs => accWrap c.sw (c.acc.toInt + q31Product c.sw (xs.getD 1 0) (xs.getD 0 0)))
def execMsu (s : State) : Out :=
  .next (s.accOp 0x0105 2 fun c xs => accWrap c.sw (c.acc.toInt - q31Product c.sw (xs.getD 1 0) (xs.getD 0 0)))
def execMacs (s : State) : Out :=
  .next (s.accOp 0x0106 2 fun c xs => accClamp c.sw (c.acc.toInt + q31Product c.sw (xs.getD 1 0) (xs.getD 0 0)))
def execMsus (s : State) : Out :=
  .next (s.accOp 0x0107 2 fun c xs => accClamp c.sw (c.acc.toInt - q31Product c.sw (xs.getD 1 0) (xs.getD 0 0)))
def execQmul (s : State) : Out := .next (s.binOp (accInsn 0x0108) qmulFlags)

/-- An extraction pushes a word taken from A, which stays (R118). -/
def State.extOp (s : State) (code : Nat) (f : Word → BitVec 40 → Word × Word) : State :=
  s.stackOp (accInsn code) 0 fun c _ => .ok ([(f c.sw c.acc).1], (f c.sw c.acc).2)

def execExtq (s : State) : Out := .next (s.extOp 0x0109 extqFlags)
def execExtqs (s : State) : Out := .next (s.extOp 0x010A extqsFlags)
def execExti (s : State) : Out := .next (s.extOp 0x010B extiFlags)
/-- APUSH ( -- lo hi ). -/
def execApush (s : State) : Out :=
  .next (s.stackOp (accInsn 0x010C) 0 fun c _ =>
    .ok ([c.acc.setWidth 32, (c.acc.extractLsb' 32 8).signExtend 32], c.sw))
/-- APOP ( lo hi -- ). -/
def execApop (s : State) : Out :=
  .next (s.accOp 0x010D 2 fun c xs => (((xs.getD 0 0).setWidth 8) ++ (xs.getD 1 0), c.sw))

/-- ASR n: an arithmetic shift, the discarded bits rounded by RM; 0 and 40 upward are unassigned codes (R138). -/
def execAsr (n : BitVec 6) (s : State) : Out :=
  .next (if n = 0 ∨ 40 ≤ n.toNat then s.runFlow { code := 0x0140 + n.toNat } fun _ _ => .error ⟨1, 0, 15, false, none, none⟩
    else s.accOp (0x0140 + n.toNat) 0 fun c _ =>
      (BitVec.ofInt 40 (roundShift (rmOf c.sw) c.acc.toInt n.toNat), c.sw))
/-- ASL n: a result that differs from the exact value clamps. -/
def execAsl (n : BitVec 6) (s : State) : Out :=
  .next (if n = 0 ∨ 40 ≤ n.toNat then s.runFlow { code := 0x0180 + n.toNat } fun _ _ => .error ⟨1, 0, 15, false, none, none⟩
    else s.accOp (0x0180 + n.toNat) 0 fun c _ => accClamp c.sw (c.acc.toInt * 2 ^ n.toNat))

end Sys2Proof.Machine
end

