-- ==== Sys2Proof/Machine/PairRows.lean ====
section
/-! DEFINITION. The rows of the pair and of the cascade: frames that arrive and that are sent, resynchronisation, takeover
(R374 to R392), the preemption entries of a standby (R381), and the Chain (R393 to R397). -/

namespace Sys2Proof.Machine

abbrev PairOut := Host.Outcome State Fault Refusal

/-! ### Preemption entries (R225, R381) -/

/-- The capture words of a release become visible (R328, R381). -/
def State.loadCapture (s : State) (e : PreIn) : State :=
  match e.cap with
  | none => s
  | some (p, t, f) =>
    if e.src < 32 ∨ 48 ≤ e.src then s else
    let m := e.src - 32
    ((s.setReg (Reg.BEA_CAPP + 0x20 * m) p).setReg (Reg.BEA_CAPT + 0x20 * m) t).setReg (Reg.BEA_CAPF + 0x20 * m) f

/-- One entry takes effect. -/
def State.applyEntry (s : State) (e : PreIn) : State :=
  match e.kind with
  | 0 => (s.loadCapture e).release e.ctx
  | 1 => s.updCtx e.ctx fun c => { c with vec11 := true }
  | 2 => s.updCtx e.ctx fun c => { c with vec16 := true }
  | _ => s

/-- The entry is done with. -/
def State.dropEntry (s : State) (e : PreIn) : State :=
  { s with bcn := { s.bcn with entries := s.bcn.entries.erase e } }

/-- A standby applies the first entry that its retired count has reached; a count that it has passed already makes it
diverge. -/
def execPreemptionEntryApply (s : State) : PairOut :=
  .next (if s.role ≠ 4 ∨ s.scn.mode ≠ .run ∨ s.scn.phase = .idle ∨ s.scn.phase = .input then s else
    match s.entriesDue with
    | [] => s
    | e :: _ =>
      if e.count ≠ s.car.retired ∧ !s.bcn.taking then s.diverge 2 else
      (((s.dropEntry e).applyEntry e).takePending).programEnd)

/-! ### Alignment (R374) -/

/-- RXLOCK of the Beacon rises; HELLO is sent (R376). The receiver runs on the partner's clock (R40), so a loss of the own
BP_REFCLK does not keep it from locking (R44). -/
def execBeaconRxlock (s : State) : PairOut :=
  .next (if !s.inRun 10 ∨ s.bcn.rxlock then s else State.sendHello { s with bcn := { s.bcn with rxlock := true } })

/-- RXLOCK of the Beacon falls: what arrives is discarded from here on. -/
def execBeaconRxlockLoss (s : State) : PairOut :=
  .next (State.frameGap { s with bcn := { s.bcn with rxlock := false } })

/-- RXLOCK of the Chain rises, and falls (R393); its receiver runs on the clock of the member before it (R40). -/
def execChainRxlock (s : State) : PairOut :=
  .next (if !s.inRun 10 then s else { s with chn := { s.chn with rxlock := true } })

def execChainRxlockLoss (s : State) : PairOut := .next { s with chn := { s.chn with rxlock := false } }

/-! ### Frames that arrive (R375 to R387) -/

/-- A record of a type arrives whole, its first frame carrying SEQ. -/
def State.arrives (s : State) (typ seq cyc : Nat) (last : Bool) (ws : List DWord) : State :=
  s.receive ⟨typ, true, last, seq % 65536, cyc % 65536, ws⟩

/-- DELTA (R379, R380). -/
def execDeltaReceived (seq cyc : Nat) (ws : List DWord) (s : State) : PairOut := .next (s.arrives tDELTA seq cyc true ws)
/-- REL (R381). -/
def execRelReceived (seq cyc : Nat) (ws : List DWord) (s : State) : PairOut := .next (s.arrives tREL seq cyc true ws)
/-- HZN (R382). -/
def execHznReceived (seq cyc : Nat) (ws : List DWord) (s : State) : PairOut := .next (s.arrives tHZN seq cyc true ws)
/-- HK, its first part or its closing frame (R383, R384). -/
def execHkReceived (seq cyc : Nat) (last : Bool) (ws : List DWord) (s : State) : PairOut :=
  .next (s.arrives tHK seq cyc last ws)
/-- STATE (R387). -/
def execStateReceived (seq cyc : Nat) (ws : List DWord) (s : State) : PairOut := .next (s.arrives tSTATE seq cyc true ws)
/-- FAIL (R388). -/
def execFailReceived (seq cyc : Nat) (ws : List DWord) (s : State) : PairOut := .next (s.arrives tFAIL seq cyc true ws)
/-- KEEP (R376). -/
def execKeepReceived (seq cyc : Nat) (ws : List DWord) (s : State) : PairOut := .next (s.arrives tKEEP seq cyc true ws)
/-- HELLO (R376, R387, R391). -/
def execHelloReceived (seq cyc : Nat) (ws : List DWord) (s : State) : PairOut := .next (s.arrives tHELLO seq cyc true ws)
/-- STATUS (R377, R386). -/
def execStatusReceived (seq cyc : Nat) (ws : List DWord) (s : State) : PairOut := .next (s.arrives tSTATUS seq cyc true ws)
/-- TAKEN (R391). -/
def execTakenReceived (seq cyc : Nat) (ws : List DWord) (s : State) : PairOut := .next (s.arrives tTAKEN seq cyc true ws)

/-- A frame with a bad CRC or header is discarded and counted (R375). -/
def execBeaconBadFrame (s : State) : PairOut :=
  .next (if !s.inRun 10 ∨ !s.bcn.rxlock then s else s.frameGap.count Reg.BCN_CRCERR)

/-! ### Frames that are sent (R376, R377, R382) -/

/-- No other frame has left for 8 µs: KEEP. -/
def execKeepSend (s : State) : PairOut :=
  .next (if !s.beaconSends then s else (s.carry (s.bcn.lastTx + 8)).sendKeep)

/-- HELLO, every 1 ms while not synchronised. -/
def execHelloSend (s : State) : PairOut :=
  .next (if !s.beaconSends ∨ s.bcn.sync ∨ s.role = 4 then s else s.sendHello)

/-- STATUS, every 50 µs on a synchronised standby. -/
def execStatusSend (s : State) : PairOut := .next (if s.role ≠ 4 then s else s.sendStatus 0)

/-- HZN, after BCN_REPL.HZN cc in which a context has retired an instruction without an entry. -/
def execHznSend (s : State) : PairOut :=
  .next (if s.scn.mode ≠ .run ∨ s.car.retired = s.bcn.lastHzn then s else s.sendHzn 0)

/-! ### Resynchronisation (R387) -/

/-- The bulk phase, and a converge pass, are complete. -/
def execBulkPhaseComplete (s : State) : PairOut := .next s.bulkDone
def execConvergePassComplete (s : State) : PairOut := .next s.passDone

/-- A new attempt begins 1 s after one that failed. -/
def execResyncRetry (s : State) : PairOut :=
  .next (match s.bcn.retryAt with
    | none => s
    | some t =>
      let s := s.carry t
      State.beginBulk { s with bcn := { s.bcn with retryAt := none } })

/-! ### Takeover (R388, R389) -/

/-- When the partner's silence, or its stalled cycle, has lasted SIL. -/
def State.silenceAt (s : State) : Nat :=
  let a := s.bcn.lastRx.getD 0 + s.sil
  if s.bcn.partnerMode = 1 then min a (s.bcn.lastDelta + s.sil) else a

/-- A synchronised standby with AUTO decides to take over. -/
def execTakeoverSilence (s : State) : PairOut :=
  .next (if s.role ≠ 4 ∨ s.bcn.taking ∨ s.bcn.decided.isSome ∨ s.f Reg.BCN_CFG 1 1 = 0 then s
    else (s.carry s.silenceAt).decideTakeover)

/-- No good request has been seen for BUSQ: a takeover that waited runs, unless the block is in HOLD. -/
def execBusGuardClear (s : State) : PairOut :=
  .next (if s.bcn.decided.isNone ∨ s.role ≠ 4 ∨ s.scn.mode = .hold then s else
    match s.bcn.busSeen with
    | none => s.takeoverRun
    | some t => (s.carry (t + s.f Reg.BCN_TIME 31 16)).takeoverRun)

/-- The guard still holds after SIL + BUSQ: the standby leaves role 4. DESIGN CHOICE: the time counts from the decision. -/
def execBusGuardTimeout (s : State) : PairOut :=
  .next (match s.bcn.decided with
    | none => s
    | some t =>
      if s.role ≠ 4 ∨ !s.busLive ∨ s.clk.us < t + s.sil + s.f Reg.BCN_TIME 31 16 then s else
      let s := s.roleTwo
      { s with bcn := { s.bcn with lastRx := none } })

/-! ### The Chain (R393 to R395) -/

/-- The Chain receives: PD10 in RUN with its clock, CHAIN_CONFIG in force, and the input aligned. -/
def State.chainHears (s : State) : Bool := s.chainOn && s.chn.rxlock

/-- A TOKEN arrives: the own one has gone round; another is passed on, and starts the next cycle. -/
def execTokenReceived (orig rnd valid : Nat) (s : State) : PairOut :=
  .next (if !s.chainHears ∨ 7 < orig then s
    else if orig = s.chainId then
      { s with chn := { s.chn with tokenBack := true, ringok := s.chn.ringok || decide (rnd % 2 ^ 32 = s.chn.rnd) } }
    else
      let s := s.sendChain ⟨1, orig, rnd % 2 ^ 32, [BitVec.ofNat 64 (valid % 256)]⟩
      if orig ≠ 0 then s else
      let s := if s.chn.token.isSome then s.count Reg.CHN_TOVR else s
      { s with chn := { s.chn with token := some (rnd % 2 ^ 32, valid % 256), alone := false } })

/-- A SLOT arrives: it is kept, and passed on unless it is the own one. A length other than 512 bytes breaks R394. -/
def execSlotReceived (orig rnd : Nat) (ws : List DWord) (s : State) : PairOut :=
  .next (if !s.chainHears ∨ 7 < orig then s
    else if ws.length ≠ 64 then s.count Reg.CHN_CRCERR
    else
      let s := if orig = s.chainId then s else s.sendChain ⟨2, orig, rnd % 2 ^ 32, ws⟩
      { s with chn := { s.chn with got := ((orig, rnd % 2 ^ 32, ws) :: s.chn.got).take 32 } })

/-- A frame with a bad CRC is dropped and counted. -/
def execChainBadFrame (s : State) : PairOut :=
  .next (if !s.inRun 10 ∨ !s.chn.rxlock then s else s.count Reg.CHN_CRCERR)

/-- The master has waited TTO µs for slots since its other conditions first held (R395). -/
def execSlotWaitTimeout (s : State) : PairOut :=
  .next (if !s.chainOn ∨ s.chainId ≠ 0 ∨ s.scn.mode ≠ .run ∨ s.scn.phase ≠ .pad then s else
    let s := s.carry (max s.scn.hkEnd (s.scn.tstart + s.scn.padMin) + s.f Reg.CHN_TIME 15 0)
    { s with chn := { s.chn with waited := true } })

/-- A member has waited TKTO µs for a token since its housekeeping ended: it starts its cycles alone (R395). -/
def execTokenTimeout (s : State) : PairOut :=
  .next (if !s.chainOn ∨ s.chainId = 0 ∨ s.scn.mode ≠ .run ∨ s.scn.phase ≠ .pad ∨ s.chn.token.isSome then s else
    let s := s.carry (s.scn.hkEnd + s.f Reg.CHN_TIME 31 16)
    { s with chn := { s.chn with alone := true } })

end Sys2Proof.Machine
end

