-- ==== Sys2Proof/Machine/Dispatch.lean ====
section
/-! DEFINITION. One arm per command: the call of its meaning. -/

namespace Sys2Proof.Machine

def exec (i : Instr) (s : State) : Host.Outcome State Fault Refusal :=
  match i with
  | .porNAssert => Sys2Proof.Machine.execPorNAssert s
  | .clapReset => Sys2Proof.Machine.execClapReset s
  | .pwrRstBlock who v => Sys2Proof.Machine.execPwrRstBlock who v s
  | .pwrRstDomain who v => Sys2Proof.Machine.execPwrRstDomain who v s
  | .pwrCtrlRequest who v => Sys2Proof.Machine.execPwrCtrlRequest who v s
  | .pwrCtrlSleep who v => Sys2Proof.Machine.execPwrCtrlSleep who v s
  | .pwrAckRise pd => Sys2Proof.Machine.execPwrAckRise pd s
  | .domainReady pd => Sys2Proof.Machine.execDomainReady pd s
  | .pwrAckFall pd => Sys2Proof.Machine.execPwrAckFall pd s
  | .ackTimeout pd => Sys2Proof.Machine.execAckTimeout pd s
  | .dozeEntry pd => Sys2Proof.Machine.execDozeEntry pd s
  | .pfailNFall => Sys2Proof.Machine.execPfailNFall s
  | .pfailNRecovery => Sys2Proof.Machine.execPfailNRecovery s
  | .sleepPowerDown => Sys2Proof.Machine.execSleepPowerDown s
  | .sleepWake src => Sys2Proof.Machine.execSleepWake src s
  | .keeperAlarm => Sys2Proof.Machine.execKeeperAlarm s
  | .clockLoss clk => Sys2Proof.Machine.execClockLoss clk s
  | .measurementWindow counts => Sys2Proof.Machine.execMeasurementWindow counts s
  | .evtInEdge k => Sys2Proof.Machine.execEvtInEdge k s
  | .clockCheckPass counts => Sys2Proof.Machine.execClockCheckPass counts s
  | .clockCheckFailure => Sys2Proof.Machine.execClockCheckFailure s
  | .bankClear => Sys2Proof.Machine.execBankClear s
  | .baseControlStoreLoad crcOk => Sys2Proof.Machine.execBaseControlStoreLoad crcOk s
  | .patchFetchTimeout => Sys2Proof.Machine.execPatchFetchTimeout s
  | .authenticateAndDecrypt blob => Sys2Proof.Machine.execAuthenticateAndDecrypt blob s
  | .applyPatch readBackOk => Sys2Proof.Machine.execApplyPatch readBackOk s
  | .bankBist fails kbFail => Sys2Proof.Machine.execBankBist fails kbFail s
  | .codeBankVerification => Sys2Proof.Machine.execCodeBankVerification s
  | .stepFailureReset => Sys2Proof.Machine.execStepFailureReset s
  | .strClearWrite who v => Sys2Proof.Machine.execStrClearWrite who v s
  | .hostRead wordAddr => Sys2Proof.Machine.execHostRead wordAddr s
  | .hostWrite wordAddr v be => Sys2Proof.Machine.execHostWrite wordAddr v be s
  | .registerWrite who addr v => Sys2Proof.Machine.execRegisterWrite who addr v s
  | .doorbellSubmit who v => Sys2Proof.Machine.execDoorbellSubmit who v s
  | .doorbellRing who v => Sys2Proof.Machine.execDoorbellRing who v s
  | .replyStatusRead who slot => Sys2Proof.Machine.execReplyStatusRead who slot s
  | .clkTimeloRead who => Sys2Proof.Machine.execClkTimeloRead who s
  | .slotInterpretation => Sys2Proof.Machine.execSlotInterpretation s
  | .ping => Sys2Proof.Machine.execPing s
  | .getInfo => Sys2Proof.Machine.execGetInfo s
  | .setMode => Sys2Proof.Machine.execSetMode s
  | .getStatus => Sys2Proof.Machine.execGetStatus s
  | .loadCode => Sys2Proof.Machine.execLoadCode s
  | .codeLoadComplete => Sys2Proof.Machine.execCodeLoadComplete s
  | .verifyCode => Sys2Proof.Machine.execVerifyCode s
  | .digestComplete => Sys2Proof.Machine.execDigestComplete s
  | .commitGeneration => Sys2Proof.Machine.execCommitGeneration s
  | .commitTimeout => Sys2Proof.Machine.execCommitTimeout s
  | .abortGeneration => Sys2Proof.Machine.execAbortGeneration s
  | .patchConst => Sys2Proof.Machine.execPatchConst s
  | .loadPatch => Sys2Proof.Machine.execLoadPatch s
  | .startRecordRestore => Sys2Proof.Machine.execStartRecordRestore s
  | .startRecordRead => Sys2Proof.Machine.execStartRecordRead s
  | .forceSet => Sys2Proof.Machine.execForceSet s
  | .forceClear => Sys2Proof.Machine.execForceClear s
  | .forceList => Sys2Proof.Machine.execForceList s
  | .stationConfig => Sys2Proof.Machine.execStationConfig s
  | .stationFeed => Sys2Proof.Machine.execStationFeed s
  | .stationStatus => Sys2Proof.Machine.execStationStatus s
  | .beatConfig => Sys2Proof.Machine.execBeatConfig s
  | .governorConfig => Sys2Proof.Machine.execGovernorConfig s
  | .standbyConfig => Sys2Proof.Machine.execStandbyConfig s
  | .takeover => Sys2Proof.Machine.execTakeover s
  | .chainConfig => Sys2Proof.Machine.execChainConfig s
  | .logFreeze => Sys2Proof.Machine.execLogFreeze s
  | .logRead => Sys2Proof.Machine.execLogRead s
  | .logClear => Sys2Proof.Machine.execLogClear s
  | .logThaw => Sys2Proof.Machine.execLogThaw s
  | .debugGrant => Sys2Proof.Machine.execDebugGrant s
  | .expertChallenge => Sys2Proof.Machine.execExpertChallenge s
  | .expertUnlock => Sys2Proof.Machine.execExpertUnlock s
  | .expertLock => Sys2Proof.Machine.execExpertLock s
  | .expertExpiry => Sys2Proof.Machine.execExpertExpiry s
  | .powerState => Sys2Proof.Machine.execPowerState s
  | .blockSleep => Sys2Proof.Machine.execBlockSleep s
  | .faultCounters => Sys2Proof.Machine.execFaultCounters s
  | .carCinitWrite who v => Sys2Proof.Machine.execCarCinitWrite who v s
  | .carPrioWrite who n v => Sys2Proof.Machine.execCarPrioWrite who n v s
  | .timerWrite who n v => Sys2Proof.Machine.execTimerWrite who n v s
  | .mcsReloadWrite who v readBackOk => Sys2Proof.Machine.execMcsReloadWrite who v readBackOk s
  | .scnBreakWrite who v => Sys2Proof.Machine.execScnBreakWrite who v s
  | .pipIcinv who v => Sys2Proof.Machine.execPipIcinv who v s
  | .pipDcinv who v => Sys2Proof.Machine.execPipDcinv who v s
  | .pipBpinv who v => Sys2Proof.Machine.execPipBpinv who v s
  | .beaCmpWrite who m v => Sys2Proof.Machine.execBeaCmpWrite who m v s
  | .govTdataWrite who v => Sys2Proof.Machine.execGovTdataWrite who v s
  | .fltClrWrite who v => Sys2Proof.Machine.execFltClrWrite who v s
  | .dbgVstepWrite who v => Sys2Proof.Machine.execDbgVstepWrite who v s
  | .lit imm => Sys2Proof.Machine.execLit imm s
  | .conditionalBranch cond annul disp => Sys2Proof.Machine.execConditionalBranch cond annul disp s
  | .jmp disp => Sys2Proof.Machine.execJmp disp s
  | .call disp => Sys2Proof.Machine.execCall disp s
  | .ld off => Sys2Proof.Machine.execLd off s
  | .ldn off => Sys2Proof.Machine.execLdn off s
  | .bitAnd off => Sys2Proof.Machine.execBitAnd off s
  | .bitAndn off => Sys2Proof.Machine.execBitAndn off s
  | .bitOr off => Sys2Proof.Machine.execBitOr off s
  | .bitOrn off => Sys2Proof.Machine.execBitOrn off s
  | .bitXor off => Sys2Proof.Machine.execBitXor off s
  | .psh off => Sys2Proof.Machine.execPsh off s
  | .pshn off => Sys2Proof.Machine.execPshn off s
  | .st off => Sys2Proof.Machine.execSt off s
  | .stn off => Sys2Proof.Machine.execStn off s
  | .set off => Sys2Proof.Machine.execSet off s
  | .rst off => Sys2Proof.Machine.execRst off s
  | .edgr off => Sys2Proof.Machine.execEdgr off s
  | .edgf off => Sys2Proof.Machine.execEdgf off s
  | .tgl off => Sys2Proof.Machine.execTgl off s
  | .nop => Sys2Proof.Machine.execNop s
  | .drop => Sys2Proof.Machine.execDrop s
  | .dup => Sys2Proof.Machine.execDup s
  | .swap => Sys2Proof.Machine.execSwap s
  | .over => Sys2Proof.Machine.execOver s
  | .rot => Sys2Proof.Machine.execRot s
  | .nrot => Sys2Proof.Machine.execNrot s
  | .nip => Sys2Proof.Machine.execNip s
  | .tuck => Sys2Proof.Machine.execTuck s
  | .dup2 => Sys2Proof.Machine.execDup2 s
  | .drop2 => Sys2Proof.Machine.execDrop2 s
  | .depth => Sys2Proof.Machine.execDepth s
  | .tor => Sys2Proof.Machine.execTor s
  | .fromr => Sys2Proof.Machine.execFromr s
  | .rfetch => Sys2Proof.Machine.execRfetch s
  | .add => Sys2Proof.Machine.execAdd s
  | .sub => Sys2Proof.Machine.execSub s
  | .adds => Sys2Proof.Machine.execAdds s
  | .subs => Sys2Proof.Machine.execSubs s
  | .adc => Sys2Proof.Machine.execAdc s
  | .sbc => Sys2Proof.Machine.execSbc s
  | .neg => Sys2Proof.Machine.execNeg s
  | .negs => Sys2Proof.Machine.execNegs s
  | .cmp => Sys2Proof.Machine.execCmp s
  | .tst => Sys2Proof.Machine.execTst s
  | .min => Sys2Proof.Machine.execMin s
  | .max => Sys2Proof.Machine.execMax s
  | .mul => Sys2Proof.Machine.execMul s
  | .mulh => Sys2Proof.Machine.execMulh s
  | .mulhu => Sys2Proof.Machine.execMulhu s
  | .div => Sys2Proof.Machine.execDiv s
  | .divs => Sys2Proof.Machine.execDivs s
  | .divu => Sys2Proof.Machine.execDivu s
  | .rem => Sys2Proof.Machine.execRem s
  | .remu => Sys2Proof.Machine.execRemu s
  | .and => Sys2Proof.Machine.execAnd s
  | .or => Sys2Proof.Machine.execOr s
  | .xor => Sys2Proof.Machine.execXor s
  | .not => Sys2Proof.Machine.execNot s
  | .sxb => Sys2Proof.Machine.execSxb s
  | .sxh => Sys2Proof.Machine.execSxh s
  | .zxb => Sys2Proof.Machine.execZxb s
  | .zxh => Sys2Proof.Machine.execZxh s
  | .clz => Sys2Proof.Machine.execClz s
  | .lcat => Sys2Proof.Machine.execLcat s
  | .shl => Sys2Proof.Machine.execShl s
  | .shr => Sys2Proof.Machine.execShr s
  | .sar => Sys2Proof.Machine.execSar s
  | .ror => Sys2Proof.Machine.execRor s
  | .seq => Sys2Proof.Machine.execSeq s
  | .sne => Sys2Proof.Machine.execSne s
  | .slt => Sys2Proof.Machine.execSlt s
  | .sle => Sys2Proof.Machine.execSle s
  | .sgt => Sys2Proof.Machine.execSgt s
  | .sge => Sys2Proof.Machine.execSge s
  | .sltu => Sys2Proof.Machine.execSltu s
  | .sgeu => Sys2Proof.Machine.execSgeu s
  | .getsw => Sys2Proof.Machine.execGetsw s
  | .setsw => Sys2Proof.Machine.execSetsw s
  | .getiw => Sys2Proof.Machine.execGetiw s
  | .setiw => Sys2Proof.Machine.execSetiw s
  | .latos => Sys2Proof.Machine.execLatos s
  | .tosla => Sys2Proof.Machine.execTosla s
  | .lpush => Sys2Proof.Machine.execLpush s
  | .lpop => Sys2Proof.Machine.execLpop s
  | .landp => Sys2Proof.Machine.execLandp s
  | .lorp => Sys2Proof.Machine.execLorp s
  | .lxorp => Sys2Proof.Machine.execLxorp s
  | .lnot => Sys2Proof.Machine.execLnot s
  | .lset => Sys2Proof.Machine.execLset s
  | .lclr => Sys2Proof.Machine.execLclr s
  | .aclr => Sys2Proof.Machine.execAclr s
  | .ald => Sys2Proof.Machine.execAld s
  | .aadd => Sys2Proof.Machine.execAadd s
  | .aadds => Sys2Proof.Machine.execAadds s
  | .mac => Sys2Proof.Machine.execMac s
  | .msu => Sys2Proof.Machine.execMsu s
  | .macs => Sys2Proof.Machine.execMacs s
  | .msus => Sys2Proof.Machine.execMsus s
  | .qmul => Sys2Proof.Machine.execQmul s
  | .extq => Sys2Proof.Machine.execExtq s
  | .extqs => Sys2Proof.Machine.execExtqs s
  | .exti => Sys2Proof.Machine.execExti s
  | .apush => Sys2Proof.Machine.execApush s
  | .apop => Sys2Proof.Machine.execApop s
  | .asr n => Sys2Proof.Machine.execAsr n s
  | .asl n => Sys2Proof.Machine.execAsl n s
  | .ldw sel => Sys2Proof.Machine.execLdw sel s
  | .ldh sel => Sys2Proof.Machine.execLdh sel s
  | .ldhu sel => Sys2Proof.Machine.execLdhu sel s
  | .ldb sel => Sys2Proof.Machine.execLdb sel s
  | .ldbu sel => Sys2Proof.Machine.execLdbu sel s
  | .stw sel => Sys2Proof.Machine.execStw sel s
  | .sth sel => Sys2Proof.Machine.execSth sel s
  | .stb sel => Sys2Proof.Machine.execStb sel s
  | .xchw sel => Sys2Proof.Machine.execXchw sel s
  | .partialOverlapRelaunch => Sys2Proof.Machine.execPartialOverlapRelaunch s
  | .uncachedLoadReturn => Sys2Proof.Machine.execUncachedLoadReturn s
  | .lineFillComplete => Sys2Proof.Machine.execLineFillComplete s
  | .correctedWriteback bank => Sys2Proof.Machine.execCorrectedWriteback bank s
  | .storeDrain => Sys2Proof.Machine.execStoreDrain s
  | .patrolScrub => Sys2Proof.Machine.execPatrolScrub s
  | .ret => Sys2Proof.Machine.execRet s
  | .reti => Sys2Proof.Machine.execReti s
  | .jmpi => Sys2Proof.Machine.execJmpi s
  | .calli => Sys2Proof.Machine.execCalli s
  | .lock k => Sys2Proof.Machine.execLock k s
  | .signal k => Sys2Proof.Machine.execSignal k s
  | .endScan => Sys2Proof.Machine.execEndScan s
  | .endt => Sys2Proof.Machine.execEndt s
  | .netg => Sys2Proof.Machine.execNetg s
  | .brk => Sys2Proof.Machine.execBrk s
  | .chime n => Sys2Proof.Machine.execChime n s
  | .fadd => Sys2Proof.Machine.execFadd s
  | .fsub => Sys2Proof.Machine.execFsub s
  | .fmul => Sys2Proof.Machine.execFmul s
  | .fdiv => Sys2Proof.Machine.execFdiv s
  | .fsqrt => Sys2Proof.Machine.execFsqrt s
  | .fneg => Sys2Proof.Machine.execFneg s
  | .fabs => Sys2Proof.Machine.execFabs s
  | .fcmp => Sys2Proof.Machine.execFcmp s
  | .fdup => Sys2Proof.Machine.execFdup s
  | .fdrop => Sys2Proof.Machine.execFdrop s
  | .fswap => Sys2Proof.Machine.execFswap s
  | .fover => Sys2Proof.Machine.execFover s
  | .fitof => Sys2Proof.Machine.execFitof s
  | .fftoi => Sys2Proof.Machine.execFftoi s
  | .fmovi => Sys2Proof.Machine.execFmovi s
  | .fmovo => Sys2Proof.Machine.execFmovo s
  | .fgetsw => Sys2Proof.Machine.execFgetsw s
  | .fsetsw => Sys2Proof.Machine.execFsetsw s
  | .fpin => Sys2Proof.Machine.execFpin s
  | .funpin => Sys2Proof.Machine.execFunpin s
  | .vld => Sys2Proof.Machine.execVld s
  | .vst => Sys2Proof.Machine.execVst s
  | .vset => Sys2Proof.Machine.execVset s
  | .vclr => Sys2Proof.Machine.execVclr s
  | .vtst => Sys2Proof.Machine.execVtst s
  | .vcnt => Sys2Proof.Machine.execVcnt s
  | .imgscan stop => Sys2Proof.Machine.execImgscan stop s
  | .imgcmp stop => Sys2Proof.Machine.execImgcmp stop s
  | .blkmov sel d stop => Sys2Proof.Machine.execBlkmov sel d stop s
  | .blkfil d stop => Sys2Proof.Machine.execBlkfil d stop s
  | .segld n => Sys2Proof.Machine.execSegld n s
  | .crel => Sys2Proof.Machine.execCrel s
  | .chlt => Sys2Proof.Machine.execChlt s
  | .cstat => Sys2Proof.Machine.execCstat s
  | .cprio => Sys2Proof.Machine.execCprio s
  | .imb => Sys2Proof.Machine.execImb s
  | .rdicnt => Sys2Proof.Machine.execRdicnt s
  | .rdcyc => Sys2Proof.Machine.execRdcyc s
  | .rdtime => Sys2Proof.Machine.execRdtime s
  | .evout => Sys2Proof.Machine.execEvout s
  | .evoget => Sys2Proof.Machine.execEvoget s
  | .savel sel stop => Sys2Proof.Machine.execSavel sel stop s
  | .saveu sel stop => Sys2Proof.Machine.execSaveu sel stop s
  | .oemInstruction k stop => Sys2Proof.Machine.execOemInstruction k stop s
  | .illegalInstruction w => Sys2Proof.Machine.execIllegalInstruction w s
  | .faultEntry vec reason seg => Sys2Proof.Machine.execFaultEntry vec reason seg s
  | .operandSpill words => Sys2Proof.Machine.execOperandSpill words s
  | .operandFill words => Sys2Proof.Machine.execOperandFill words s
  | .returnSpill words => Sys2Proof.Machine.execReturnSpill words s
  | .returnFill words => Sys2Proof.Machine.execReturnFill words s
  | .fpOwnershipTransfer stop => Sys2Proof.Machine.execFpOwnershipTransfer stop s
  | .latchTake => Sys2Proof.Machine.execLatchTake s
  | .contextSwitch => Sys2Proof.Machine.execContextSwitch s
  | .lanternShareSlot => Sys2Proof.Machine.execLanternShareSlot s
  | .intervalTimer n => Sys2Proof.Machine.execIntervalTimer n s
  | .lockOverrun => Sys2Proof.Machine.execLockOverrun s
  | .maskOverrun => Sys2Proof.Machine.execMaskOverrun s
  | .machineCheckEntry readBackOk => Sys2Proof.Machine.execMachineCheckEntry readBackOk s
  | .mcsScrub => Sys2Proof.Machine.execMcsScrub s
  | .preemptionEntryApply => Sys2Proof.Machine.execPreemptionEntryApply s
  | .cycleStart => Sys2Proof.Machine.execCycleStart s
  | .inputTransferEnd => Sys2Proof.Machine.execInputTransferEnd s
  | .outputTransferEnd => Sys2Proof.Machine.execOutputTransferEnd s
  | .housekeepingSlot => Sys2Proof.Machine.execHousekeepingSlot s
  | .cycleWatchdogExpiry => Sys2Proof.Machine.execCycleWatchdogExpiry s
  | .watchdogGraceExpiry => Sys2Proof.Machine.execWatchdogGraceExpiry s
  | .cycleWarning => Sys2Proof.Machine.execCycleWarning s
  | .dataRequest link stn => Sys2Proof.Machine.execDataRequest link stn s
  | .identRequest link stn => Sys2Proof.Machine.execIdentRequest link stn s
  | .configRequest link stn => Sys2Proof.Machine.execConfigRequest link stn s
  | .dataResponse link bytes => Sys2Proof.Machine.execDataResponse link bytes s
  | .identResponse link bytes => Sys2Proof.Machine.execIdentResponse link bytes s
  | .configResponse link bytes => Sys2Proof.Machine.execConfigResponse link bytes s
  | .responseTimeout link => Sys2Proof.Machine.execResponseTimeout link s
  | .heldFrameBurst link => Sys2Proof.Machine.execHeldFrameBurst link s
  | .mainsEdge n cycles => Sys2Proof.Machine.execMainsEdge n cycles s
  | .missingEdgeLockLoss n => Sys2Proof.Machine.execMissingEdgeLockLoss n s
  | .encoderTransition n a b => Sys2Proof.Machine.execEncoderTransition n a b s
  | .indexEdge n => Sys2Proof.Machine.execIndexEdge n s
  | .compareMatch m rev => Sys2Proof.Machine.execCompareMatch m rev s
  | .strobeStart m link => Sys2Proof.Machine.execStrobeStart m link s
  | .strobeEnd m link => Sys2Proof.Machine.execStrobeEnd m link s
  | .strobeFallback k => Sys2Proof.Machine.execStrobeFallback k s
  | .memberSafeTimeout link stn => Sys2Proof.Machine.execMemberSafeTimeout link stn s
  | .idleSagCheck => Sys2Proof.Machine.execIdleSagCheck s
  | .beaconRxlock => Sys2Proof.Machine.execBeaconRxlock s
  | .deltaReceived seq cyc ws => Sys2Proof.Machine.execDeltaReceived seq cyc ws s
  | .relReceived seq cyc ws => Sys2Proof.Machine.execRelReceived seq cyc ws s
  | .hznReceived seq cyc ws => Sys2Proof.Machine.execHznReceived seq cyc ws s
  | .hkReceived seq cyc last ws => Sys2Proof.Machine.execHkReceived seq cyc last ws s
  | .stateReceived seq cyc ws => Sys2Proof.Machine.execStateReceived seq cyc ws s
  | .failReceived seq cyc ws => Sys2Proof.Machine.execFailReceived seq cyc ws s
  | .keepReceived seq cyc ws => Sys2Proof.Machine.execKeepReceived seq cyc ws s
  | .helloReceived seq cyc ws => Sys2Proof.Machine.execHelloReceived seq cyc ws s
  | .statusReceived seq cyc ws => Sys2Proof.Machine.execStatusReceived seq cyc ws s
  | .takenReceived seq cyc ws => Sys2Proof.Machine.execTakenReceived seq cyc ws s
  | .beaconBadFrame => Sys2Proof.Machine.execBeaconBadFrame s
  | .keepSend => Sys2Proof.Machine.execKeepSend s
  | .helloSend => Sys2Proof.Machine.execHelloSend s
  | .statusSend => Sys2Proof.Machine.execStatusSend s
  | .hznSend => Sys2Proof.Machine.execHznSend s
  | .convergePassComplete => Sys2Proof.Machine.execConvergePassComplete s
  | .resyncRetry => Sys2Proof.Machine.execResyncRetry s
  | .takeoverSilence => Sys2Proof.Machine.execTakeoverSilence s
  | .busGuardTimeout => Sys2Proof.Machine.execBusGuardTimeout s
  | .tokenReceived orig rnd valid => Sys2Proof.Machine.execTokenReceived orig rnd valid s
  | .slotReceived orig rnd ws => Sys2Proof.Machine.execSlotReceived orig rnd ws s
  | .chainBadFrame => Sys2Proof.Machine.execChainBadFrame s
  | .slotWaitTimeout => Sys2Proof.Machine.execSlotWaitTimeout s
  | .tokenTimeout => Sys2Proof.Machine.execTokenTimeout s
  | .clapSync lowNs => Sys2Proof.Machine.execClapSync lowNs s
  | .clapBreak => Sys2Proof.Machine.execClapBreak s
  | .clapIdleTimeout => Sys2Proof.Machine.execClapIdleTimeout s
  | .clapBadRequest seq => Sys2Proof.Machine.execClapBadRequest seq s
  | .dbgId seq => Sys2Proof.Machine.execDbgId seq s
  | .dbgStatus seq => Sys2Proof.Machine.execDbgStatus seq s
  | .dbgRead seq space addr => Sys2Proof.Machine.execDbgRead seq space addr s
  | .dbgReadLive seq space addr => Sys2Proof.Machine.execDbgReadLive seq space addr s
  | .dbgWrite seq space addr v => Sys2Proof.Machine.execDbgWrite seq space addr v s
  | .dbgHalt seq => Sys2Proof.Machine.execDbgHalt seq s
  | .dbgResume seq => Sys2Proof.Machine.execDbgResume seq s
  | .dbgStep seq => Sys2Proof.Machine.execDbgStep seq s
  | .debugHaltTaken => Sys2Proof.Machine.execDebugHaltTaken s
  | .stepComplete => Sys2Proof.Machine.execStepComplete s
  | .logAppend => Sys2Proof.Machine.execLogAppend s
  | .classLastingEnd c stn => Sys2Proof.Machine.execClassLastingEnd c stn s
  | .watchdogWarning => Sys2Proof.Machine.execWatchdogWarning s
  | .watchdogExpiry => Sys2Proof.Machine.execWatchdogExpiry s
  | .porNRelease chainId pairRole => Sys2Proof.Machine.execPorNRelease chainId pairRole s
  | .beaconRxlockLoss => Sys2Proof.Machine.execBeaconRxlockLoss s
  | .chainRxlock => Sys2Proof.Machine.execChainRxlock s
  | .chainRxlockLoss => Sys2Proof.Machine.execChainRxlockLoss s
  | .busGuardClear => Sys2Proof.Machine.execBusGuardClear s
  | .bulkPhaseComplete => Sys2Proof.Machine.execBulkPhaseComplete s
  | .pwrAckUnrequestedFall pd => Sys2Proof.Machine.execPwrAckUnrequestedFall pd s

end Sys2Proof.Machine
end

