-- ==== Sys2Proof/Machine/Tick.lean ====
section
/-! DEFINITION. One microsecond in which no command comes: what the block does by itself as time passes. -/

namespace Sys2Proof.Machine

/-- Bytes that the trace port sends in a microsecond: two TRACE_CLK cycles each, CORE ÷ 4 or ÷ 8 at the frequency that
CLK_MEAS0 has measured over 8 KEEP_CLK cycles (R40, R44, R442). -/
def State.traceRate (s : State) : Nat :=
  s.f Reg.CLK_MEAS 23 0 * 4096 / (8 * 1000000 * (1 + s.f Reg.CLK_CTRL 0 0))

/-- The trace port sends what one microsecond takes. -/
def State.drainTrace (s : State) : State :=
  if s.traceOn then { s with dbg := { s.dbg with fifo := s.dbg.fifo.drop s.traceRate } } else s

/-- Lantern has a core on which no context runs, or in HOLD a context that stands still: it restarts the watchdog (R462) and carries out what was staged. -/
def State.lanternIdle (s : State) : State :=
  if (s.car.running.isNone || decide (s.scn.mode = .hold)) && s.lanternTurn then (s.wdtRestart).lanternSettle else s

/-- The steps of µs time: 1 from the divider of WDT_CLK; while WDT_CLK is lost one cycle of KEEP_CLK, 15625/512 µs, in steps of
30 or 31 (R45). The second value is the part of a microsecond that is left. -/
def State.timeStep (s : State) : Nat × Nat :=
  if bit s.clk.lost 6 then ((s.clk.keepFrac + 15625) / 512, (s.clk.keepFrac + 15625) % 512) else (1, 0)

/-- A step of µs time passes: µs time, the phases of the Beat sources and the classifier's time go on (R45, R323, R457).
Before POR_N rises no time is kept. -/
def State.tick (s : State) : State :=
  if s.pwr.por then s else
  let s' := s.carry (s.clk.us + s.timeStep.1)
  (State.drainTrace { s' with
    clk := { s'.clk with keepFrac := s.timeStep.2 }
    banks := { s'.banks with xbCore := [] } }).lanternIdle

end Sys2Proof.Machine
end

