-- ==== Sys2Proof/Safety.lean ====
section
/-! DEFINITION. The terms that statements about the block are made in: what a command gives, the state in which the
running context executes an instruction undisturbed, what such an instruction leaves as it was, and the canonical form
of the stores. -/

namespace Sys2Proof.Machine

/-- Command c, acting on s, answers a next state of which P holds. -/
def Gives (c : Instr) (s : State) (P : State → Prop) : Prop := ∃ t, exec c s = .next t ∧ P t

/-! ### The canonical form of the stores -/

/-- The banks' bytes and the registers stand in canonical form: keys strictly rising, nothing listed that holds what an
unlisted key reads as. -/
def State.canonical (s : State) : Prop := Memory.wf s.mem = true ∧ Map.wf resetValue s.regs = true

/-! ### An instruction that nothing disturbs -/

/-- The instruction at PC can be fetched: the checks of R104 and R105 pass, and its bank delivers it without an error. -/
def State.fetchable (s : State) (n : Nat) : Bool :=
  match s.check (s.ctx n) 0 .fetch (s.ctx n).pc.toNat 2 2 with
  | .ok a => decide ((s.dom (domainOf a)).st = .run) && decide (s.eccAt a = .none)
  | .error _ => false

/-- Context n, native, stands between two instructions with nothing pending: no slot to fill, no lock, no loaded value on
its way, no vector due, no spill, fill or fault entry half done. -/
def Ctx.plain (c : Ctx) : Bool :=
  decide (c.slot = .none) && decide (c.lkc = 0) && decide (c.load = none) && decide (c.landing = none) && !c.chain
    && !c.chainLant && !c.vec11 && !c.vec15 && !c.vec16 && decide (c.vstep = 0) && !bit c.ctrl 7
    && decide (c.half = none) && decide (c.wrong = none) && decide (c.vec14 = none) && !c.yielded

/-- No comparator acts: every ACTION is off (R439). -/
def State.unwatched (s : State) : Bool := (List.range 8).all fun k => decide (s.f (Reg.DBG_CMP + 0x10 * k) 2 0 = 0)

/-- Context n is on the core in the program phase of a block in RUN that stands alone; the next instruction can be
fetched; no comparator acts; no HOLD, halt, debug step, share slot or held load stands; no parity error is latent. -/
def State.steady (s : State) (n : Nat) : Bool :=
  decide (s.car.running = some n) && decide (s.scn.mode = .run) && decide (s.scn.phase = .program) && !s.scn.holdReq
    && !s.scn.directDue && decide (s.core.halt = .none) && decide (s.core.held = none) && decide (s.bcn.role = 0)
    && decide (s.bcn.resync = .none) && decide (s.mcs.bad = []) && decide (s.core.badPar = []) && s.unwatched
    && decide (s.dbg.step = none) && (s.ctx n).plain && s.fetchable n && !s.core.lantern.slot

/-- The context after an instruction: PC at the next instruction, the counts advanced, and the progress of a long
instruction dropped (R150). -/
def Ctx.next (c : Ctx) : Ctx :=
  { c with
    pc := c.pc + 2, icnt := c.icnt + 1, retired := c.retired + 1, noMatch := false
    prog := if fld c.prog 31 30 = 1 then 0 else c.prog }

/-- What an instruction of context n that only computes leaves as it was: every other context, every byte of the banks and
every buffered store, the floating-point state, every register but the count of instruction-cache misses, and every
unit's state. Its fetch may change the instruction cache. -/
structure OnlyCtx (s t : State) (n : Nat) : Prop where
  others : ∀ m, m ≠ n → t.ctx m = s.ctx m
  mem : t.mem = s.mem
  regs : ∀ a, a ≠ Reg.PIP_ICMISS → t.reg a = s.reg a
  fp : t.core.fp = s.core.fp ∧ t.core.fpsw = s.core.fpsw ∧ t.core.fpown = s.core.fpown ∧ t.core.pin = s.core.pin
    ∧ t.core.fpHalf = s.core.fpHalf ∧ t.core.fpSaved = s.core.fpSaved
  buffer : t.core.sb = s.core.sb ∧ t.core.dcache = s.core.dcache ∧ t.core.held = s.core.held
  core : t.core.halt = s.core.halt ∧ t.core.bp = s.core.bp ∧ t.core.itt = s.core.itt ∧ t.core.gh = s.core.gh
    ∧ t.core.lantern = s.core.lantern
  carillon : t.car = { s.car with ctxs := t.car.ctxs, retired := t.car.retired }
  units : t.pending = s.pending ∧ t.scn = s.scn ∧ t.log = s.log ∧ t.flt = s.flt ∧ t.hst = s.hst ∧ t.pwr = s.pwr
    ∧ t.clk = s.clk ∧ t.str = s.str ∧ t.mcs = s.mcs ∧ t.banks = s.banks ∧ t.flk = s.flk ∧ t.bea = s.bea
    ∧ t.gov = s.gov ∧ t.olc = s.olc ∧ t.bcn = s.bcn ∧ t.chn = s.chn ∧ t.dbg = s.dbg

/-- The instruction computes: context n becomes c, at the next instruction, and nothing else changes. -/
def Computes (i : Instr) (s : State) (n : Nat) (c : Ctx) : Prop :=
  Gives i s fun t => t.ctx n = c.next ∧ OnlyCtx s t n

/-! ### What else stays as it was -/

/-- The parts of the state, for the frames of what commands do. -/
inductive Part where
  | mem | fp | caches | predict | buffer | held | halt | lantern
  | contexts | running | latches | arrivals | timers | retired | recorded | evtOut | latency
  | scn | log | flt | hst | pwr | clk | str | mcs | banks | xbWrites | flk | bea | gov | olc | bcn | chn | dbg
  deriving DecidableEq, Repr

/-- A part is the same in both states. -/
def Part.same (p : Part) (s t : State) : Prop :=
  match p with
  | .mem => t.mem = s.mem
  | .fp => t.core.fp = s.core.fp ∧ t.core.fpsw = s.core.fpsw ∧ t.core.fpown = s.core.fpown ∧ t.core.pin = s.core.pin
      ∧ t.core.fpHalf = s.core.fpHalf ∧ t.core.fpSaved = s.core.fpSaved
  | .caches => t.core.icache = s.core.icache ∧ t.core.dcache = s.core.dcache ∧ t.core.lineBuf = s.core.lineBuf
      ∧ t.core.fills = s.core.fills ∧ t.core.badPar = s.core.badPar
  | .predict => t.core.bp = s.core.bp ∧ t.core.itt = s.core.itt ∧ t.core.gh = s.core.gh
  | .buffer => t.core.sb = s.core.sb
  | .held => t.core.held = s.core.held
  | .halt => t.core.halt = s.core.halt
  | .lantern => t.core.lantern = s.core.lantern
  | .contexts => t.car.ctxs = s.car.ctxs
  | .running => t.car.running = s.car.running
  | .latches => t.car.latches = s.car.latches
  | .arrivals => t.car.nextSeq = s.car.nextSeq
  | .timers => t.car.due = s.car.due
  | .retired => t.car.retired = s.car.retired
  | .recorded => t.car.pre = s.car.pre
  | .evtOut => t.car.evtOut = s.car.evtOut ∧ t.car.evtHeld = s.car.evtHeld
  | .latency => t.car.measured = s.car.measured
  | .scn => t.scn = s.scn
  | .log => t.log = s.log
  | .flt => t.flt = s.flt
  | .hst => t.hst = s.hst
  | .pwr => t.pwr = s.pwr
  | .clk => t.clk = s.clk
  | .str => t.str = s.str
  | .mcs => t.mcs = s.mcs
  | .banks => t.banks = { s.banks with xbCore := t.banks.xbCore }
  | .xbWrites => t.banks.xbCore = s.banks.xbCore
  | .flk => t.flk = s.flk
  | .bea => t.bea = s.bea
  | .gov => t.gov = s.gov
  | .olc => t.olc = s.olc
  | .bcn => t.bcn = s.bcn
  | .chn => t.chn = s.chn
  | .dbg => t.dbg = s.dbg

/-- What Lantern's code leaves in the core whenever it runs (R173, R180). -/
def lanternTraces : List Part := [.lantern, .caches, .predict]

/-- Nothing changes but the parts `ps` and the registers `rs`. -/
def Only (ps : List Part) (rs : List Nat) (s t : State) : Prop :=
  t.pending = s.pending ∧ (∀ p, p ∉ ps → p.same s t) ∧ ∀ a, a ∉ rs → t.reg a = s.reg a

/-- Nothing changes but context n, the parts `ps`, the count of retired instructions, the caches and the count of
instruction-cache misses, and the registers `rs`. -/
def Within (ps : List Part) (rs : List Nat) (s t : State) (n : Nat) : Prop :=
  Only (.contexts :: .retired :: .caches :: ps) (Reg.PIP_ICMISS :: rs) s t ∧ ∀ m, m ≠ n → t.ctx m = s.ctx m

/-- Instruction i of context n leaves the context as c, and changes nothing else but `ps` and `rs`, of which P holds. -/
def Becomes (i : Instr) (s : State) (n : Nat) (c : Ctx) (ps : List Part) (rs : List Nat) (P : State → Prop) : Prop :=
  Gives i s fun t => t.ctx n = c ∧ Within ps rs s t n ∧ P t

/-- No error is latent in a bank's word and no store waits in the buffer. -/
def State.clean (s : State) : Bool := decide (s.banks.ecc = []) && decide (s.core.sb = [])

/-- The image bank answers the core: the engine does not hold it and its domain is in RUN. -/
def State.imageOpen (s : State) : Bool := s.clean && !s.imageHeld && decide ((s.dom 7).st = .run)

/-! ### A fault taken -/

/-- Where a fault entry of context n puts its frame: the lowest address that it writes. -/
def State.frameAt (s : State) (n : Nat) : Nat :=
  dBase ((s.ctx n).seg 3) + ((s.ctx n).rsp.toNat - 4 * ((s.ctx n).rc.length + 4))

/-- The return stack of context n takes the frame and the cached return words, in the data or the system bank (R215), and nothing
waits that may fall at the entry's safe point (R216). -/
def State.entryRoom (s : State) (n : Nat) : Bool :=
  s.clean && s.entryFits (s.ctx n) && !s.entryWaits n && decide ((s.dom 6).st = .run) && decide (0x400000 ≤ s.frameAt n)
    && decide (s.frameAt n + 4 * ((s.ctx n).rc.length + 4) ≤ 0x680000)

/-- The words of a frame from the lowest address on: the progress word, the fault word, SW, PC (R213, R214). -/
def faultFrame (c : Ctx) (n vec reason seg : Nat) : List Word :=
  [if fld c.prog 31 30 = 1 then c.prog else 0, BitVec.ofNat 32 (vec + 0x100 * reason + 0x4000 * n + 0x1000000 * seg), c.sw, c.pc]

/-- Instruction i of context n takes the fault vec with REASON and selector: the return cache and the frame stand in
memory, PROG, GM and LKC are 0, and PC is the vector's (R215). -/
def Enters (i : Instr) (s : State) (n vec reason seg : Nat) : Prop :=
  let c := s.ctx n
  let k := c.rc.length + 4
  let a := s.frameAt n
  Becomes i s n
    { c with
      pc := BitVec.ofNat 32 (16 * vec), sw := c.sw &&& 0xFFFF8EFF, rc := [], rsp := c.rsp - BitVec.ofNat 32 (4 * k)
      prog := 0, chain := true, noMatch := false }
    [.mem] [] fun t => t.car.retired = s.car.retired
      ∧ (∀ j, j < k → t.w32 (a + 4 * j) = (faultFrame c n vec reason seg ++ c.rc).getD j 0)
      ∧ ∀ b, b < a ∨ a + 4 * k ≤ b → t.byte b = s.byte b

/-! ### A block that does one thing at a time -/

/-- A block in RUN that stands alone: no halt, no debug step, no held load, no HOLD asked for, no resynchronisation, and
the trace port off. -/
def State.calm (s : State) : Bool :=
  decide (s.scn.mode = .run) && decide (s.core.halt = .none) && decide (s.core.held = none) && decide (s.bcn.role = 0)
    && decide (s.bcn.resync = .none) && decide (s.dbg.step = none) && !s.scn.holdReq && !s.traceOn && !s.pwr.por

/-- A fault of class c is counted in TOTAL; the class escalates nothing (R457, R458). -/
def State.silentClass (s : State) (c : Nat) : Bool := decide (s.f (Reg.FLT_CFG + 4 * c) 31 30 = 0)
def Counted (s t : State) (c : Nat) : Prop :=
  t.f (Reg.FLT_CNT + 4 * c) 23 0 = satInc (s.f (Reg.FLT_CNT + 4 * c) 23 0) 0xFFFFFF

/-- Latches after source j has fired (R193). -/
def Latched (s t : State) (j : Nat) : Prop :=
  ∀ i, i < 128 → bit t.car.latches i = (bit s.car.latches i || decide (i = j))

/-- The n bytes from a are those of the list, and every other byte of the banks is as it was. -/
def BytesWritten (s t : State) (a : Nat) (bs : List Byte) : Prop :=
  (∀ j, j < bs.length → t.byte (a + j) = bs.getD j 0) ∧ ∀ b, b < a ∨ a + bs.length ≤ b → t.byte b = s.byte b

/-- No station, binding, governor member or staged work: the image moves between its areas as it stands. -/
def State.bare (s : State) : Bool :=
  decide (s.flk.stns = []) && decide (s.flk.hfs = []) && decide (s.flk.staged = []) && decide (s.flk.due = [])
    && decide (s.flk.quiet = []) && decide (s.flk.links = []) && decide (s.bindings = []) && decide (s.gov = {})
    && decide (s.scn.staged = []) && decide (s.olc.consts = []) && decide (s.olc.commit = none)
    && decide (s.hst.jobs = []) && decide (s.banks.ecc = []) && !bit (s.reg Reg.CHN_CFG) 8 && s.inRun 7

/-! ### A restart -/

/-- A block reset with the given bit of PWR_RSTCAUSE (R54, R63): PD1 to PD11 hold reset or are off, every byte of the banks
stands, and the start sequence stands at S1 with the start counted. -/
structure Restarts (s t : State) (cause : Nat) : Prop where
  cause : t.reg Reg.PWR_RSTCAUSE = BitVec.ofNat 32 (2 ^ cause) ∧ t.str.cause = 2 ^ cause
  start : t.str.startCount = (s.str.startCount + 1) % 65536 ∧ t.str.step = 1 ∧ t.str.stepFrom = 0 ∧ t.clk.us = 0
  mode : t.scn.mode = .none ∧ t.scn.phase = .idle ∧ t.scn.cyc = s.scn.cyc ∧ t.pwr.sleep = .awake
  domains : ∀ n, 1 ≤ n → n ≤ 11 → (t.dom n).st = match (s.dom n).st with
    | .off => .off
    | .falling f => .falling f
    | .run => if n = 4 ∨ n = 5 then .run else .held
    | .doze => if n = 4 ∨ n = 5 then .doze else .held
    | .dozing => if n = 4 ∨ n = 5 then .dozing else .held
    | _ => .held
  units : t.core = {} ∧ t.car = {} ∧ t.mcs = {} ∧ t.olc = {} ∧ t.gov = {} ∧ t.bcn = {} ∧ t.chn = {} ∧ t.dbg = {}
  host : t.hst = { slots := s.hst.slots, next := s.hst.next }
  mem : t.mem = s.mem

/-! ### What a host command answers -/

/-- The byte at b once the ranges of the list have been written, the first over the others. -/
def bytesAt (l : List (Nat × List Byte)) (old : Byte) (b : Nat) : Byte :=
  match l.find? fun e => decide (e.1 ≤ b) && decide (b < e.1 + e.2.length) with
  | some e => e.2.getD (b - e.1) 0
  | none => old

/-- Lantern interprets the packet ws of slot n, after the start, no context's store waits before its accesses (R166 to R168), and it has the
core: no context is on it, a HOLD stands, or it is in a share slot (R199), at whose end no packet is sent. -/
def State.interprets (s : State) (n : Nat) (ws : List Word) : Bool :=
  decide (s.hst.interp = some (n, ws)) && decide (n < 16) && decide (s.str.step = 15) && !s.str.halt && !s.pwr.por
    && decide (s.pwr.sleep ≠ .asleep) && decide (s.core.sb = []) && s.lanternTurn
    && (s.core.lantern.slot || s.car.running.isNone || decide (s.scn.mode = .hold)) && !(s.core.lantern.slot && s.traceOn)

/-- Lantern's work in the slot has ended: a context on the core goes on, and Lantern's return stack is empty. -/
def LanternDone (s t : State) : Prop := t.core.lantern = { s.core.lantern with slot := false, depth := 0 }

/-- Slot n has been answered with code and body (R408 to R410); the rest of the host unit is as h, the ranges `more` are written, and nothing
else has changed but `ps` and `rs`. -/
def Replied (s t : State) (n code : Nat) (body : List Word) (h : Hst) (more : List (Nat × List Byte)) (ps : List Part)
    (rs : List Nat) : Prop :=
  t.slot n = { s.slot n with st := 3, code := code, rlen := body.length, consumed := false, restart := false }
  ∧ (∀ m, m ≠ n → t.slot m = s.slot m) ∧ t.hst = { h with interp := none, slots := t.hst.slots }
  ∧ (∀ b, t.byte b = bytesAt ((slotAddr n + 4, wordsToBytes body) :: more) (s.byte b) b)
  ∧ bit (t.reg Reg.HST_IRQ) 0 = true
  ∧ t.reg Reg.HST_CMDCNT = BitVec.ofNat 32 (satInc (s.reg Reg.HST_CMDCNT).toNat 0xFFFFFFFF)
  ∧ Only (.mem :: .hst :: .xbWrites :: ps) (Reg.HST_IRQ :: Reg.HST_CMDCNT :: rs) s t

/-- Command c, the interpretation of slot n, answers it, and leaves P. -/
def Answers (c : Instr) (s : State) (n code : Nat) (body : List Word) (h : Hst) (more : List (Nat × List Byte))
    (ps : List Part) (rs : List Nat) (P : State → Prop) : Prop :=
  Gives c s fun t => Replied s t n code body h more (.lantern :: ps) rs ∧ LanternDone s t ∧ P t

/-- Command c, the end of what a deferred command of slot n waited for, answers it, and leaves P. -/
def Completes (c : Instr) (s : State) (n code : Nat) (body : List Word) (h : Hst) (more : List (Nat × List Byte))
    (ps : List Part) (rs : List Nat) (P : State → Prop) : Prop :=
  Gives c s fun t => Replied s t n code body h more ps rs ∧ P t

/-- Lantern, with no command to go on with, may have a share slot at once: no context is on the core, and no entry at vector 1 or 5 is
due (R199, R223). -/
def State.slotFree (s : State) : Bool :=
  s.calm && s.car.running.isNone && s.hst.interp.isNone && decide (s.reg Reg.EXC_MCPEND = 0) && decide (4 ≤ s.str.step)
    && !s.str.halt && decide (s.pwr.sleep ≠ .asleep) && decide (s.scn.phase ≠ .housekeeping) && !s.core.lantern.slot

/-- Command c is deferred (R412): it waits with what its rule needs, and leaves the rest but `ps` and `rs`, of which P
holds. -/
def Defers (c : Instr) (s : State) (j : Job) (ps : List Part) (rs : List Nat) (P : State → Prop) : Prop :=
  Gives c s fun t => t.hst = { s.hst with interp := none, jobs := s.hst.jobs ++ [j] } ∧ LanternDone s t
    ∧ Only (.lantern :: .hst :: ps) rs s t ∧ P t

end Sys2Proof.Machine
end

