-- ==== Sys2Proof/Safety/Results.lean ====
section
/-! DEFINITION. The results of the instructions that only compute, in exact arithmetic over the operands, for the statements
that say what the block does with them. -/

namespace Sys2Proof.Claims

open Sys2Proof.Machine

/-! ### Flags (R94, R111) -/

/-- What an instruction makes of the flags; none leaves a flag as it was. -/
structure Flags where
  c : Option Bool := none
  z : Option Bool := none
  n : Option Bool := none
  v : Option Bool := none
  s : Option Bool := none
  g : Option Bool := none

/-- SW after an instruction with these flags: its other bits are unchanged. -/
def Flags.hold (f : Flags) (old new : Word) : Prop :=
  bit new 0 = f.c.getD (bit old 0) ∧ bit new 1 = f.z.getD (bit old 1) ∧ bit new 2 = f.n.getD (bit old 2)
    ∧ bit new 3 = f.v.getD (bit old 3) ∧ bit new 4 = f.s.getD (bit old 4) ∧ bit new 5 = f.g.getD (bit old 5)
    ∧ ∀ j, 6 ≤ j → j < 32 → bit new j = bit old j

/-- Z and N of a result. -/
def zn (r : Word) : Flags := { z := some (decide (r = 0)), n := some (decide (r.toInt < 0)) }

/-- A sticky flag: set where the condition holds, else as it was. -/
def sticky (b : Bool) : Option Bool := if b then some true else none

/-- A value clamped to the signed range of 32 bits. -/
def clamped (x : Int) : Int := max (-2147483648) (min x 2147483647)

/-- A result and the flags of a sum whose exact signed value is x, with a carry. -/
def summed (x : Int) (c : Bool) : Word × Flags :=
  let r := BitVec.ofInt 32 x
  (r, { zn r with c := some c, v := some (decide (r.toInt ≠ x)) })

/-- The same, clamped. -/
def saturated (x : Int) (c : Bool) : Word × Flags :=
  let r := BitVec.ofInt 32 (clamped x)
  (r, { zn r with c := some c, v := some false, s := sticky (decide (clamped x ≠ x)) })

/-- The flags of the comparison a − b. -/
def compared (a b : Word) : Flags := (summed (a.toInt - b.toInt) (decide (b.toNat ≤ a.toNat))).2

/-- A truth value (R110). -/
def holds (b : Bool) : Word := if b then 0xFFFFFFFF else 0

/-- An exact value rounded by RM to units of 2^k (R116). -/
def rounded (rm : Nat) (x : Int) (k : Nat) : Int :=
  let q := x / 2 ^ k
  let f := x % 2 ^ k
  match rm with
  | 0 => q
  | 1 => if 2 ^ k ≤ 2 * f then q + 1 else q
  | 2 => if 2 ^ k < 2 * f ∨ (2 ^ k = 2 * f ∧ q % 2 = 1) then q + 1 else q
  | _ => if x < 0 ∧ 0 < f then q + 1 else q

/-! ### Two operands: a in NOS, b in TOS -/

/-- Result and flags of a shift by n of an operand whose exact shifted value is `r`, the last bit out being `last`
(R113). -/
def shifted (a r : Word) (n : Nat) (last : Bool) : Word × Flags :=
  if n = 0 then (a, zn a) else (r, { zn r with c := some last })

/-- The result and the flags of a two-operand instruction that always completes, from SW. -/
def binary (i : Instr) (sw a b : Word) : Option (Word × Flags) :=
  let c := bit sw 0
  let sp := a.toInt * b.toInt
  let up := a.toNat * b.toNat
  let tell (p : Bool) := some (holds p, compared a b)
  let logic (r : Word) := some (r, zn r)
  match i with
  | .add => some (summed (a.toInt + b.toInt) (decide (2 ^ 32 ≤ a.toNat + b.toNat)))
  | .sub => some (summed (a.toInt - b.toInt) (decide (b.toNat ≤ a.toNat)))
  | .adc => some (summed (a.toInt + b.toInt + c.toNat) (decide (2 ^ 32 ≤ a.toNat + b.toNat + c.toNat)))
  | .sbc => some (summed (a.toInt - b.toInt - (!c).toNat) (decide (b.toNat + (!c).toNat ≤ a.toNat)))
  | .adds => some (saturated (a.toInt + b.toInt) (decide (2 ^ 32 ≤ a.toNat + b.toNat)))
  | .subs => some (saturated (a.toInt - b.toInt) (decide (b.toNat ≤ a.toNat)))
  | .min => some (if a.toInt < b.toInt then a else b, compared a b)
  | .max => some (if a.toInt < b.toInt then b else a, compared a b)
  | .mul =>
    let r := BitVec.ofInt 32 sp
    some (r, { zn r with v := some (decide (r.toInt ≠ sp)) })
  | .mulh =>
    let r := BitVec.ofInt 32 (sp / 2 ^ 32)
    some (r, { zn r with v := some (decide ((BitVec.ofInt 32 sp).toInt ≠ sp)) })
  | .mulhu =>
    let r := BitVec.ofNat 32 (up / 2 ^ 32)
    some (r, { zn r with v := some (decide (2 ^ 32 ≤ up)) })
  | .and => logic (a &&& b)
  | .or => logic (a ||| b)
  | .xor => logic (a ^^^ b)
  | .lcat => logic ((a <<< 15) ||| (b &&& 0x7FFF))
  | .shl => some (shifted a (a <<< b.toNat) b.toNat (decide (b.toNat ≤ 32) && bit a (32 - b.toNat)))
  | .shr => some (shifted a (a >>> b.toNat) b.toNat (decide (b.toNat ≤ 32) && bit a (b.toNat - 1)))
  | .sar => some (shifted a (a.sshiftRight b.toNat) b.toNat (bit a (min 31 (b.toNat - 1))))
  | .ror =>
    let r := a.rotateRight (b.toNat % 32)
    some (r, { zn r with c := if b.toNat % 32 = 0 then none else some (bit r 31) })
  | .seq => tell (decide (a = b))
  | .sne => tell (decide (a ≠ b))
  | .slt => tell (decide (a.toInt < b.toInt))
  | .sle => tell (decide (a.toInt ≤ b.toInt))
  | .sgt => tell (decide (b.toInt < a.toInt))
  | .sge => tell (decide (b.toInt ≤ a.toInt))
  | .sltu => tell (decide (a.toNat < b.toNat))
  | .sgeu => tell (decide (b.toNat ≤ a.toNat))
  | .qmul =>
    let x := rounded (fld sw 7 6) sp 31
    let r := BitVec.ofInt 32 (clamped x)
    some (r, { zn r with s := sticky (decide (clamped x ≠ x)) })
  | _ => none

/-- The result and the flags of a division (R114), the divisor 0 included. -/
def divided (i : Instr) (a b : Word) : Option (Word × Flags) :=
  let out (r : Word) (v : Bool) : Option (Word × Flags) := some (r, { zn r with v := some v })
  let least := a = 0x80000000 ∧ b = 0xFFFFFFFF
  match i with
  | .div =>
    if b = 0 then out (if a.toInt < 0 then 0x80000000 else 0x7FFFFFFF) true
    else if least then out 0x80000000 true else out (BitVec.ofInt 32 (Int.tdiv a.toInt b.toInt)) false
  | .divs =>
    if b = 0 then out (if a.toInt < 0 then 0x80000000 else 0x7FFFFFFF) true
    else if least then some (0x7FFFFFFF, { zn 0x7FFFFFFF with v := some false, s := some true })
    else out (BitVec.ofInt 32 (Int.tdiv a.toInt b.toInt)) false
  | .divu => if b = 0 then out 0xFFFFFFFF true else out (BitVec.ofNat 32 (a.toNat / b.toNat)) false
  | .rem =>
    if b = 0 then out a true
    else if least then out 0 true else out (BitVec.ofInt 32 (Int.tmod a.toInt b.toInt)) false
  | .remu => if b = 0 then out a true else out (BitVec.ofNat 32 (a.toNat % b.toNat)) false
  | _ => none

/-! ### One operand -/

/-- The result and the flags of a one-operand instruction. -/
def unary (i : Instr) (a : Word) : Option (Word × Flags) :=
  let logic (r : Word) := some (r, zn r)
  match i with
  | .neg => some (summed (-a.toInt) (decide (a = 0)))
  | .negs => some (saturated (-a.toInt) (decide (a = 0)))
  | .not => logic (a ^^^ 0xFFFFFFFF)
  | .sxb => logic ((a.setWidth 8).signExtend 32)
  | .sxh => logic ((a.setWidth 16).signExtend 32)
  | .zxb => logic ((a.setWidth 8).setWidth 32)
  | .zxh => logic ((a.setWidth 16).setWidth 32)
  | .clz => logic (BitVec.ofNat 32 (if a = 0 then 32 else 31 - Nat.log2 a.toNat))
  | .tst => logic a
  | _ => none

/-! ### Pushes and permutations -/

/-- The value that an instruction pushes, from the state and the running context. -/
def pushes (i : Instr) (s : State) (n : Nat) : Option Word :=
  let c := s.ctx n
  match i with
  | .lit k => some (k.signExtend 32)
  | .depth => some (BitVec.ofNat 32 c.depth)
  | .getsw => some c.sw
  | .getiw => some (BitVec.ofNat 32 (c.iwn * 256))
  | .latos => some (holds c.la)
  | .rdicnt => some (BitVec.ofNat 32 c.icnt)
  | .rdcyc => some (BitVec.ofNat 32 s.scn.runCyc)
  | .rdtime => some (BitVec.ofNat 32 s.scn.tstart)
  | .evoget => some (s.car.evtOut.setWidth 32)
  | _ => none

/-- What an instruction makes of the operand stack, TOS first. -/
def permuted (i : Instr) (st : List Word) : Option (List Word) :=
  match i, st with
  | .nop, st => some st
  | .drop, _ :: r => some r
  | .dup, a :: r => some (a :: a :: r)
  | .swap, b :: a :: r => some (a :: b :: r)
  | .over, b :: a :: r => some (a :: b :: a :: r)
  | .rot, c :: b :: a :: r => some (a :: c :: b :: r)
  | .nrot, c :: b :: a :: r => some (b :: a :: c :: r)
  | .nip, b :: _ :: r => some (b :: r)
  | .tuck, b :: a :: r => some (b :: a :: b :: r)
  | .dup2, b :: a :: r => some (b :: a :: b :: a :: r)
  | .drop2, _ :: _ :: r => some r
  | _, _ => none

/-! ### The accumulator (R115 to R118, R138) -/

/-- A, the stack and the flags after an accumulator instruction, from A, the stack and SW. -/
structure AccEffect where
  acc : BitVec 40
  st : List Word
  fl : Flags := {}

/-- An exact value in 40 bits, wrapping or clamping. -/
def wrapped40 (x : Int) (st : List Word) : AccEffect :=
  let a := BitVec.ofInt 40 x
  { acc := a, st := st, fl := { g := sticky (decide (a.toInt ≠ x)) } }
def clamped40 (x : Int) (st : List Word) : AccEffect :=
  let y := max (-549755813888) (min x 549755813887)
  { acc := BitVec.ofInt 40 y, st := st, fl := { g := sticky (decide (y ≠ x)), s := sticky (decide (y ≠ x)) } }

/-- The accumulator instructions. -/
def accumulates (i : Instr) (sw : Word) (acc : BitVec 40) (st : List Word) : Option AccEffect :=
  let rm := fld sw 7 6
  let p (a b : Word) := rounded rm (a.toInt * b.toInt) 31
  let inside := decide (-2147483648 ≤ acc.toInt) && decide (acc.toInt ≤ 2147483647)
  match i, st with
  | .aclr, st => some { acc := 0, st := st }
  | .ald, x :: r => some { acc := BitVec.ofInt 40 x.toInt, st := r }
  | .aadd, x :: r => some (wrapped40 (acc.toInt + x.toInt) r)
  | .aadds, x :: r => some (clamped40 (acc.toInt + x.toInt) r)
  | .mac, b :: a :: r => some (wrapped40 (acc.toInt + p a b) r)
  | .msu, b :: a :: r => some (wrapped40 (acc.toInt - p a b) r)
  | .macs, b :: a :: r => some (clamped40 (acc.toInt + p a b) r)
  | .msus, b :: a :: r => some (clamped40 (acc.toInt - p a b) r)
  | .extq, st => some { acc := acc, st := acc.setWidth 32 :: st, fl := { zn (acc.setWidth 32) with v := some (!inside) } }
  | .extqs, st =>
    let r := BitVec.ofInt 32 (clamped acc.toInt)
    some { acc := acc, st := r :: st, fl := { zn r with v := some false, s := sticky (!inside) } }
  | .exti, st =>
    let r := BitVec.ofInt 32 (rounded rm acc.toInt 31)
    some { acc := acc, st := r :: st, fl := { zn r with v := some false } }
  | .apush, st => some { acc := acc, st := BitVec.ofInt 32 (acc.toInt / 2 ^ 32) :: acc.setWidth 32 :: st }
  | .apop, hi :: lo :: r => some { acc := BitVec.ofNat 40 (hi.toNat % 256 * 2 ^ 32 + lo.toNat), st := r }
  | .asr k, st =>
    if 1 ≤ k.toNat ∧ k.toNat ≤ 39 then some { acc := BitVec.ofInt 40 (rounded rm acc.toInt k.toNat), st := st } else none
  | .asl k, st => if 1 ≤ k.toNat ∧ k.toNat ≤ 39 then some (clamped40 (acc.toInt * 2 ^ k.toNat) st) else none
  | _, _ => none

/-! ### LA and the logic stack (R93, R137) -/

/-- LA, the logic stack's bits and LDEPTH after an instruction that completes. -/
def logic (i : Instr) (la : Bool) (ls : BitVec 16) (d : Nat) : Option (Bool × BitVec 16 × Nat) :=
  let pop (f : Bool → Bool → Bool) : Option (Bool × BitVec 16 × Nat) :=
    if d = 0 then none else some (f (bit ls 0) la, ls >>> 1, d - 1)
  match i with
  | .lpush => if 16 ≤ d then none else some (la, (ls <<< 1) ||| BitVec.ofNat 16 la.toNat, d + 1)
  | .lpop => pop fun l _ => l
  | .landp => pop fun l t => l && t
  | .lorp => pop fun l t => l || t
  | .lxorp => pop fun l t => l != t
  | .lnot => some (!la, ls, d)
  | .lset => some (true, ls, d)
  | .lclr => some (false, ls, d)
  | _ => none

/-! ### Bit and vector instructions (R134, R149) -/

/-- What a bit instruction does with LA and the point at its offset: LA is pushed first, LA after it, and the value
written, for an instruction of the class that writes its point. -/
structure BitEffect where
  off : BitVec 8
  push : Bool := false
  la : Bool
  stores : Bool := false
  value : Option Bool := none

/-- The bit instructions (R134), from LA and the point p. -/
def bits (i : Instr) (la p : Bool) : Option BitEffect :=
  match i with
  | .ld o => some { off := o, la := p }
  | .ldn o => some { off := o, la := !p }
  | .bitAnd o => some { off := o, la := la && p }
  | .bitAndn o => some { off := o, la := la && !p }
  | .bitOr o => some { off := o, la := la || p }
  | .bitOrn o => some { off := o, la := la || !p }
  | .bitXor o => some { off := o, la := la != p }
  | .psh o => some { off := o, push := true, la := p }
  | .pshn o => some { off := o, push := true, la := !p }
  | .st o => some { off := o, la := la, stores := true, value := some la }
  | .stn o => some { off := o, la := la, stores := true, value := some (!la) }
  | .set o => some { off := o, la := la, stores := true, value := if la then some true else none }
  | .rst o => some { off := o, la := la, stores := true, value := if la then some false else none }
  | .edgr o => some { off := o, la := la && !p, stores := true, value := some la }
  | .edgf o => some { off := o, la := p && !la, stores := true, value := some la }
  | .tgl o => some { off := o, la := la, stores := true, value := if la then some (!p) else none }
  | _ => none

/-- The vector image instructions (R149), from the image word and the stack below pa: the stack after it, and the word
written. -/
def vector (i : Instr) (x : DWord) (st : List Word) : Option (List Word × Option DWord) :=
  match i, st with
  | .vld, r => some (x.extractLsb' 32 32 :: x.setWidth 32 :: r, none)
  | .vst, hi :: lo :: r => some (r, some (hi ++ lo))
  | .vset, hi :: lo :: r => some (r, some (x ||| (hi ++ lo)))
  | .vclr, hi :: lo :: r => some (r, some (x &&& ~~~(hi ++ lo)))
  | .vtst, hi :: lo :: r => some (holds (decide (x &&& (hi ++ lo) ≠ 0)) :: r, none)
  | .vcnt, r => some (BitVec.ofNat 32 ((List.range 64).filter fun j => bit x j).length :: r, none)
  | _, _ => none

/-- The image word w becomes v: its bytes and, where it changes, its stamp; every other byte stays (R269). -/
def WordWritten (s t : State) (w : Nat) (v : DWord) : Prop :=
  t.img w = v
  ∧ t.byte (stampAddr w) = (if s.img w = v then s.byte (stampAddr w) else BitVec.ofNat 8 s.scn.cyc)
  ∧ ∀ b, b < imgAddr w ∨ imgAddr w + 8 ≤ b → b ≠ stampAddr w → t.byte b = s.byte b

/-! ### Loads and stores (R104, R110, R139) -/

/-- An access of `size` bytes at offset o through selector k of context n meets plain memory: the checks of R104 pass, it
lies in the data or the system bank, no error is latent and no store waits. -/
def plainAccess (s : State) (n k : Nat) (rd wr : Bool) (o size : Nat) : Bool :=
  let d := (s.ctx n).seg k
  let a := dBase d + o
  s.clean && dVALID d && decide (fld d.2 31 24 ≠ 0) && (!rd || dR d) && (!wr || dW d) && (!dPRV d || bit (s.ctx n).sw 9) && decide (o + size ≤ dLimit d + 1)
    && decide (o % size = 0) && decide (0x400000 ≤ a) && decide (a + size ≤ 0x680000)
    && !s.mappedOut a && !s.mappedOut (a + size - 1) && decide ((s.dom 6).st = .run)

/-- Selector, size and sign extension of a load. -/
def loads (i : Instr) : Option (BitVec 3 × Nat × Bool) :=
  match i with
  | .ldw k => some (k, 4, false)
  | .ldh k => some (k, 2, true)
  | .ldhu k => some (k, 2, false)
  | .ldb k => some (k, 1, true)
  | .ldbu k => some (k, 1, false)
  | _ => none

/-- Selector and size of a store. -/
def stores (i : Instr) : Option (BitVec 3 × Nat) :=
  match i with
  | .stw k => some (k, 4)
  | .sth k => some (k, 2)
  | .stb k => some (k, 1)
  | _ => none

/-- A number of `size` bytes extended to a word (R110). -/
def extended (size : Nat) (signed : Bool) (v : Nat) : Word :=
  if signed then (BitVec.ofNat (8 * size) v).signExtend 32 else BitVec.ofNat 32 v

/-! ### Transfers (R128 to R130) -/

/-- What a condition code asks of the operands that CMP compared (R128). -/
def relation (code : Nat) (a b : Word) : Option Prop :=
  match code with
  | 0 => some (a = b)
  | 1 => some (a ≠ b)
  | 2 => some (b.toNat ≤ a.toNat)
  | 3 => some (a.toNat < b.toNat)
  | 8 => some (b.toNat < a.toNat)
  | 9 => some (a.toNat ≤ b.toNat)
  | 10 => some (b.toInt ≤ a.toInt)
  | 11 => some (a.toInt < b.toInt)
  | 12 => some (b.toInt < a.toInt)
  | 13 => some (a.toInt ≤ b.toInt)
  | _ => none

/-- The context after a transfer to t that has a delay slot. -/
def transferred (c : Ctx) (t : Word) : Ctx := { c.next with slot := .taken t }

/-- Transfer i of context n leaves it as c, the wrong path that has been fetched behind its slot apart (R172), and changes nothing
else but the prediction, the count of mispredictions and the registers rs. -/
def Transfers (i : Instr) (s : State) (n : Nat) (c : Ctx) (rs : List Nat) : Prop :=
  ∃ w, Becomes i s n { c with wrong := w } [.predict] (Reg.PIP_MISPRED :: rs) fun _ => True

/-! ### Faults (R211) -/

/-- The fault that an instruction raises on what context n holds: vector and REASON. -/
def raises (i : Instr) (s : State) (n : Nat) : Option (Nat × Nat) :=
  let c := s.ctx n
  let prv := bit c.sw 9
  let top := c.oc.headD 0
  let when (p : Prop) [Decidable p] (r : Nat × Nat) : Option (Nat × Nat) := if p then some r else none
  let byZero := when (2 ≤ c.oc.length ∧ top = 0 ∧ s.f Reg.EXC_CTRL 0 0 = 1) (5, 0)
  let takes1 (no0 : Bool) : Option (Nat × Nat) :=
    if prv = false then some (13, 0)
    else when (1 ≤ c.oc.length ∧ (63 < top.toNat ∨ (no0 = true ∧ top = 0))) (1, 5)
  match i with
  | .brk => some (14, 0)
  | .div => byZero
  | .divs => byZero
  | .divu => byZero
  | .rem => byZero
  | .remu => byZero
  | .setsw => when (1 ≤ c.oc.length ∧ prv = false
      ∧ (bit top 8 ≠ bit c.sw 8 ∨ bit top 9 = true ∨ bit top 11 ≠ bit c.sw 11)) (13, 1)
  | .setiw => if c.oc = [] then none else if top.toNat % 256 ≠ 0 then some (4, 0) else when (0x110000 ≤ top.toNat) (2, 2)
  | .jmpi => when (1 ≤ c.oc.length ∧ bit top 0 = true) (4, 0)
  | .calli => when (1 ≤ c.oc.length ∧ bit top 0 = true) (4, 0)
  | .lpush => when (16 ≤ c.ldepth) (12, 0)
  | .lpop => when (c.ldepth = 0) (12, 1)
  | .landp => when (c.ldepth = 0) (12, 1)
  | .lorp => when (c.ldepth = 0) (12, 1)
  | .lxorp => when (c.ldepth = 0) (12, 1)
  | .endScan => when (n ≠ 0) (1, 3)
  | .endt => when (n = 0) (1, 3)
  | .asr k => when (k = 0 ∨ 40 ≤ k.toNat) (1, 0)
  | .asl k => when (k = 0 ∨ 40 ≤ k.toNat) (1, 0)
  | .segld k => if k = 0 then some (1, 0) else when (prv = false) (13, 0)
  | .crel => takes1 true
  | .chlt => takes1 true
  | .cstat => takes1 false
  | .cprio => if prv = false then some (13, 0)
      else when (2 ≤ c.oc.length ∧ (63 < top.toNat ∨ 15 < (c.oc.getD 1 0).toNat)) (1, 5)
  | .savel _ _ => when (prv = false) (13, 0)
  | .saveu _ _ => when (prv = false) (13, 0)
  | .drop => when (c.depth < 1) (7, 0)
  | .dup => when (c.depth < 1) (7, 0)
  | .swap => when (c.depth < 2) (7, 0)
  | .rot => when (c.depth < 3) (7, 0)
  | .add => when (c.depth < 2) (7, 0)
  | .neg => when (c.depth < 1) (7, 0)
  | .mac => when (c.depth < 2) (7, 0)
  | .fromr => when (c.rdepth = 0) (9, 0)
  | .ret => when (c.rdepth = 0) (9, 0)
  | .reti => when (c.rdepth < 4) (9, 0)
  | .lit _ => when (c.oc.length = 16 ∧ c.osp.toNat < 32) (6, 0)
  | .over => when (2 ≤ c.oc.length ∧ c.oc.length = 16 ∧ c.osp.toNat < 32) (6, 0)
  | _ => none

/-! ### Floating point (R119 to R124, R148) -/

/-- What a floating-point instruction leaves: the FP stack, the sticky flags it adds, the operand stack, and SW. -/
structure FpEffect where
  fp : List Word
  fl : BitVec 5 := 0
  oc : List Word
  sw : Word

/-- The floating-point instructions, from SW, the operand stack, the FP stack and FPSW. -/
def floats (i : Instr) (sw : Word) (oc fp : List Word) (fpsw : BitVec 5) : Option FpEffect :=
  let put (r : Word × BitVec 5) (f : List Word) : Option FpEffect := some { fp := r.1 :: f, fl := r.2, oc := oc, sw := sw }
  let just (f : List Word) : Option FpEffect := some { fp := f, oc := oc, sw := sw }
  match i, fp, oc with
  | .fadd, b :: a :: f, _ => put (Machine.fadd a b) f
  | .fsub, b :: a :: f, _ => put (Machine.fsub a b) f
  | .fmul, b :: a :: f, _ => put (Machine.fmul a b) f
  | .fdiv, b :: a :: f, _ => put (Machine.fdiv a b) f
  | .fsqrt, a :: f, _ => put (Machine.fsqrt a) f
  | .fneg, a :: f, _ => put (Machine.fneg a) f
  | .fabs, a :: f, _ => put (Machine.fabs a) f
  | .fcmp, b :: a :: f, _ => some { fp := f, fl := (fcmpFlags sw a b).2, oc := oc, sw := (fcmpFlags sw a b).1 }
  | .fdup, a :: f, _ => just (a :: a :: f)
  | .fdrop, _ :: f, _ => just f
  | .fswap, b :: a :: f, _ => just (a :: b :: f)
  | .fover, b :: a :: f, _ => just (a :: b :: a :: f)
  | .fitof, f, x :: r => some { fp := (Machine.fitof x).1 :: f, fl := (Machine.fitof x).2, oc := r, sw := sw }
  | .fftoi, a :: f, r => some { fp := f, fl := (Machine.fftoi (fld sw 7 6) a).2, oc := (Machine.fftoi (fld sw 7 6) a).1 :: r, sw := sw }
  | .fmovi, f, x :: r => some { fp := x :: f, oc := r, sw := sw }
  | .fmovo, a :: f, r => some { fp := f, oc := a :: r, sw := sw }
  | .fgetsw, f, r => some { fp := f, oc := BitVec.ofNat 32 (fpsw.toNat + 0x100 * f.length) :: r, sw := sw }
  | _, _, _ => none

/-! ### The end of an activation (R145) -/

/-- What END_SCAN and ENDT leave of a context but its state: at its entry point, with empty stacks. -/
def ended (c : Ctx) : Ctx :=
  { c with
    pc := c.entry, oc := [], rc := [], osp := BitVec.ofNat 32 (dLimit (c.seg 2) + 1)
    rsp := BitVec.ofNat 32 (dLimit (c.seg 3) + 1), ls := 0, ldepth := 0, prog := 0
    icnt := c.icnt + 1, retired := c.retired + 1, noMatch := false }

/-! ### Networks (R278, R279) -/

/-- A guard entry g asks for an evaluation: its word has no stamp, or changed no more than d cycles ago. -/
def guardAsks (s : State) (d g : Nat) : Bool :=
  decide (16384 ≤ g % 0x8000) || decide ((s.scn.cyc % 256 + 256 - (s.byte (stampAddr (g % 0x8000))).toNat) % 256 ≤ d)

/-- The network whose record stands at a is evaluated (R279, step 5). -/
def evaluates (s : State) (n a : Nat) : Bool :=
  let hdr := s.mread a 4
  let d := (s.scn.cyc + 2 ^ 56 - (s.mread (a + 8) 4 + 2 ^ 32 * s.mread (a + 12) 3)) % 2 ^ 56
  bit (s.ctx n).sw 11 || s.scn.gdet || !(hdr / 2 ^ 22 % 2 == 1) || decide (128 ≤ d)
    || (List.range (hdr / 2 ^ 23 % 32)).any fun j => guardAsks s d (s.mread (a + 16 + 2 * j) 2)

/-! ### Searches (R152) -/

/-- Where a search over the points from point address pa, k words of them, ends: at the first point of which p holds, or
nowhere. -/
def FirstPoint (pa : Word) (k : Nat) (p : Nat → Bool) (r : Word) : Prop :=
  (∃ j, j < 64 * k ∧ p j = true ∧ (∀ i, i < j → p i = false) ∧ r = pa + BitVec.ofNat 32 j)
  ∨ ((∀ j, j < 64 * k → p j = false) ∧ r = 0xFFFFFFFF)

/-- k image words from point address pa lie in one area, and pa is a multiple of 64 (R109, R152). -/
def wordsFit (pa : Word) (k : Nat) : Bool :=
  decide (pa.toNat % 64 = 0) && decide (pa.toNat < 0x110000)
    && (decide (k = 0) || decide (areaOf (pa.toNat / 64 + k - 1) = areaOf (pa.toNat / 64)))

/-! ### Rounds of a link (R304, R321) -/

/-- Link n after its exchange with station a: it goes on to the next station of the round; past the last one FLK_LROUND shows the round's
length, and an enabled link begins the next round. -/
def LinkAfter (s t : State) (n a : Nat) : Prop :=
  let x := { s.link n with exch := none, next := a + 1 }
  let round := Reg.FLK_LROUND + 0x20 * n
  let more := (s.polled n).any fun b => decide (a < b)
  (∀ m, m ≠ n → t.link m = s.link m)
  ∧ ((s.link n).cfg = none ∨ more = true → t.link n = x ∧ t.reg round = s.reg round)
  ∧ ((s.link n).cfg ≠ none → more = false → t.reg round = BitVec.ofNat 32 (min (s.clk.us - x.from_) 0xFFFFFF)
    ∧ t.link n = if bit (s.reg (Reg.FLK_LCFG + 0x20 * n)) 0 then
        { x with next := 0, from_ := s.clk.us, cfg := some (s.reg (Reg.FLK_LCFG + 0x20 * n)) }
      else { x with next := 0, cfg := none })

end Sys2Proof.Claims
end

