-- ==== Sys2Proof/Certificates/Slice0/Obligations.lean ====
section
/-! DEFINITION. The statements for the provers. -/

open Sys2Proof Sys2Proof.Machine Sys2Proof.Claims

/-! ### Instructions that only compute (R111 to R118, R127, R137, R138) -/

/-- NOP, what pushes a word, and the permutations of the operand stack do that and nothing else (R127, R137, R156). -/
def Obligations.StackInstructions : Prop :=
  (∀ (i : Instr) (s : State) (n : Nat) (v : Word),
    s.steady n = true → pushes i s n = some v → (s.ctx n).oc.length < 16 →
    Computes i s n { s.ctx n with oc := v :: (s.ctx n).oc })
  ∧ (∀ (i : Instr) (s : State) (n : Nat) (st : List Word),
    s.steady n = true → permuted i (s.ctx n).oc = some st → (s.ctx n).oc.length ≤ 16 → st.length ≤ 16 →
    Computes i s n { s.ctx n with oc := st })

/-- An instruction of one or two operands leaves its result in their place, with the flags of its class (R111 to R115,
R137, R138); a division by zero gives the results of R114 where it does not fault; TST leaves its operand and CMP takes
both. -/
def Obligations.ArithmeticResults : Prop :=
  (∀ (i : Instr) (s : State) (n : Nat) (a b r : Word) (rest : List Word) (fl : Flags),
    s.steady n = true → (s.ctx n).oc = b :: a :: rest → (s.ctx n).oc.length ≤ 16 →
    binary i (s.ctx n).sw a b = some (r, fl) →
    ∃ sw, fl.hold (s.ctx n).sw sw ∧ Computes i s n { s.ctx n with oc := r :: rest, sw := sw })
  ∧ (∀ (i : Instr) (s : State) (n : Nat) (a b r : Word) (rest : List Word) (fl : Flags),
    s.steady n = true → (s.ctx n).oc = b :: a :: rest → (s.ctx n).oc.length ≤ 16 →
    (b ≠ 0 ∨ s.f Reg.EXC_CTRL 0 0 = 0) → divided i a b = some (r, fl) →
    ∃ sw, fl.hold (s.ctx n).sw sw ∧ Computes i s n { s.ctx n with oc := r :: rest, sw := sw })
  ∧ (∀ (s : State) (n : Nat) (a : Word) (rest : List Word),
    s.steady n = true → (s.ctx n).oc = a :: rest → (s.ctx n).oc.length ≤ 16 →
    (∀ i r fl, unary i a = some (r, fl) →
      ∃ sw, fl.hold (s.ctx n).sw sw ∧ Computes i s n { s.ctx n with oc := r :: rest, sw := sw })
    ∧ (∀ b rest', rest = b :: rest' →
      ∃ sw, (compared b a).hold (s.ctx n).sw sw ∧ Computes .cmp s n { s.ctx n with oc := rest', sw := sw }))

/-- The accumulator instructions (R115 to R118, R138). -/
def Obligations.AccumulatorResult : Prop := ∀ (i : Instr) (s : State) (n : Nat) (e : AccEffect),
  s.steady n = true → (s.ctx n).oc.length ≤ 16 → e.st.length ≤ 16 →
  accumulates i (s.ctx n).sw (s.ctx n).acc (s.ctx n).oc = some e →
  ∃ sw, e.fl.hold (s.ctx n).sw sw ∧ Computes i s n { s.ctx n with acc := e.acc, oc := e.st, sw := sw }

/-- LA and the logic stack with TOSLA (R93, R137); SETSW by R95 and SETIW by R107, where they raise no fault; TOR, FROMR
and RFETCH between the cached stacks (R92, R137); LOCK k sets LKC to k as it retires (R96). -/
def Obligations.RegisterMoves : Prop :=
  (∀ (i : Instr) (s : State) (n : Nat),
    s.steady n = true →
    (∀ la ls d, logic i (s.ctx n).la (s.ctx n).ls (s.ctx n).ldepth = some (la, ls, d) →
      Computes i s n { s.ctx n with la := la, ls := ls, ldepth := d })
    ∧ (∀ a rest, (s.ctx n).oc = a :: rest →
      Computes .tosla s n { s.ctx n with oc := rest, la := decide (a ≠ 0) }))
  ∧ (∀ (s : State) (n : Nat) (x : Word) (rest : List Word),
    s.steady n = true → (s.ctx n).oc = x :: rest →
    ((bit (s.ctx n).sw 9 = true ∨ (bit x 8 = bit (s.ctx n).sw 8 ∧ bit x 9 = false ∧ bit x 11 = bit (s.ctx n).sw 11)) →
      ∃ sw, (∀ j, j < 32 → bit sw j = if j ≤ 8 ∨ j = 11 then bit x j else if j = 9 then bit (s.ctx n).sw 9 && bit x 9
          else bit (s.ctx n).sw j)
        ∧ Computes .setsw s n { s.ctx n with oc := rest, sw := sw })
    ∧ (x.toNat % 256 = 0 → x.toNat < 0x110000 → Computes .setiw s n { s.ctx n with oc := rest, iwn := x.toNat / 256 }))
  ∧ (∀ (s : State) (n : Nat), s.steady n = true →
    (∀ a rest, (s.ctx n).oc = a :: rest → (s.ctx n).rc.length < 8 →
      Computes .tor s n { s.ctx n with oc := rest, rc := a :: (s.ctx n).rc })
    ∧ (∀ a rest, (s.ctx n).rc = a :: rest → (s.ctx n).oc.length < 16 →
      Computes .fromr s n { s.ctx n with oc := a :: (s.ctx n).oc, rc := rest }
      ∧ Computes .rfetch s n { s.ctx n with oc := a :: (s.ctx n).oc }))
  ∧ (∀ (s : State) (n : Nat) (k : BitVec 3), s.steady n = true →
    ∃ sw, (∀ j, j < 32 → bit sw j = if 12 ≤ j ∧ j ≤ 14 then bit k (j - 12) else bit (s.ctx n).sw j)
      ∧ Computes (.lock k) s n { s.ctx n with sw := sw })

/-! ### SW, IW, the return stack, LA and the image -/

/-- A bit instruction has the effect of R134 on LA, the logic stack and its point; one that writes a point of the I or S
area takes the segment-access fault instead (R135). -/
def Obligations.BitInstructions : Prop := ∀ (i : Instr) (s : State) (n : Nat) (e : BitEffect) (p : Nat),
  s.steady n = true → s.imageOpen = true → p = (s.ctx n).iwn * 256 + e.off.toNat →
  bits i (s.ctx n).la (s.pointVal p) = some e →
  (e.stores = false → e.push = false → Becomes i s n { s.ctx n with la := e.la }.next [] [] fun _ => True)
  ∧ (e.push = true → (s.ctx n).ldepth < 16 →
    Becomes i s n { s.ctx n with
      la := e.la, ls := ((s.ctx n).ls <<< 1) ||| BitVec.ofNat 16 (s.ctx n).la.toNat, ldepth := (s.ctx n).ldepth + 1 }.next
      [] [] fun _ => True)
  ∧ (e.stores = true → 4096 ≤ p / 64 → p / 64 < 16384 →
    Becomes i s n { s.ctx n with la := e.la }.next [.mem] []
      fun t => WordWritten s t (p / 64) (setBit (s.img (p / 64)) (p % 64) (e.value.getD (s.pointVal p))))
  ∧ (e.stores = true → (p / 64 < 4096 ∨ 16384 ≤ p / 64) → s.entryRoom n = true → Enters i s n 3 4 15)

/-- A vector image instruction reads or writes the image word that pa names (R149). -/
def Obligations.VectorInstructions : Prop := ∀ (i : Instr) (s : State) (n : Nat) (pa : Word) (rest st : List Word)
    (v : Option DWord), s.steady n = true → s.imageOpen = true → (s.ctx n).oc = pa :: rest → (s.ctx n).oc.length ≤ 15 →
  pa.toNat % 64 = 0 → pa.toNat < 0x110000 → vector i (s.img (pa.toNat / 64)) rest = some (st, v) →
  match v with
  | none => Becomes i s n { s.ctx n with oc := st }.next [] [] fun _ => True
  | some x => 4096 ≤ pa.toNat / 64 → pa.toNat / 64 < 16384 →
    Becomes i s n { s.ctx n with oc := st }.next [.mem] [] fun t => WordWritten s t (pa.toNat / 64) x

/-! ### Loads and stores -/

/-- A load of plain, cacheable memory leaves the offset's slot as it was for the next instruction and the value on its
way; the value stands in the slot after that instruction (R139, R140). -/
def Obligations.LoadInstructions : Prop :=
  (∀ (i : Instr) (s : State) (n : Nat) (k : BitVec 3) (size : Nat) (signed : Bool)
      (off : Word) (rest : List Word), s.steady n = true → loads i = some (k, size, signed) → (s.ctx n).oc = off :: rest →
    plainAccess s n k.toNat true false off.toNat size = true → dNS ((s.ctx n).seg k.toNat) = false →
    Becomes i s n { s.ctx n with load := some ((s.ctx n).depth - 1,
        extended size signed (s.mread (dBase ((s.ctx n).seg k.toNat) + off.toNat) size)) }.next
      [] [Reg.PIP_DCMISS] fun _ => True)
  ∧ (∀ (s : State) (n : Nat) (old v : Word) (rest : List Word),
    (s.ctx n).oc = old :: rest → (s.ctx n).load = some ((s.ctx n).depth - 1, v) → 0 < (s.ctx n).depth →
    ({ s with car := { s.car with ctxs := Map.set (fun _ => {}) s.car.ctxs n { s.ctx n with load := none } } } : State).steady n = true →
    Becomes .nop s n { s.ctx n with oc := v :: rest, load := none }.next [] [] fun _ => True)

/-- A store enters the store buffer as it retires, and changes no byte of a bank (R139, R166); XCHW reads a word and
writes another in its place as one access, and the word read lands as a load does (R141). -/
def Obligations.StoreInstructions : Prop :=
  (∀ (i : Instr) (s : State) (n : Nat) (k : BitVec 3) (size : Nat)
      (off x : Word) (rest : List Word), s.steady n = true → stores i = some (k, size) → (s.ctx n).oc = off :: x :: rest →
    plainAccess s n k.toNat false true off.toNat size = true →
    Becomes i s n { s.ctx n with oc := rest }.next [.buffer] []
      fun t => t.core.sb = [⟨dBase ((s.ctx n).seg k.toNat) + off.toNat, size, BitVec.ofNat 32 (x.toNat % 2 ^ (8 * size)), some n⟩])
  ∧ (∀ (s : State) (n : Nat) (k : BitVec 3) (off x : Word) (rest : List Word),
    s.steady n = true → (s.ctx n).oc = off :: x :: rest → (s.ctx n).depth ≥ 2 →
    plainAccess s n k.toNat true true off.toNat 4 = true →
    let a := dBase ((s.ctx n).seg k.toNat) + off.toNat
    Becomes (.xchw k) s n { s.ctx n with oc := x :: rest, load := some ((s.ctx n).depth - 2, s.w32 a) }.next [.mem] []
      fun t => t.w32 a = x ∧ ∀ b, b < a ∨ a + 4 ≤ b → t.byte b = s.byte b)

/-! ### Transfers, locks, faults -/

/-- The sixteen conditions of SW and LA (R128); after a comparison, one holds exactly where its relation does (R94). A
conditional branch (R129): taken, it goes to its target behind its slot; not taken, it goes on; an annulled slot is
passed over. -/
def Obligations.ConditionalBranch : Prop :=
  (∀ (code : Nat) (sw sw' a b : Word) (la : Bool) (p : Prop),
    let z := bit sw 1
    let same := bit sw 2 == bit sw 3
    ((List.range 16).map (fun k => condHolds k sw la) = [z, !z, bit sw 0, !bit sw 0, bit sw 2, !bit sw 2, bit sw 3, !bit sw 3,
      bit sw 0 && !z, !bit sw 0 || z, same, !same, !z && same, z || !same, la, true])
    ∧ ((compared a b).hold sw sw' → relation code a b = some p → (condHolds code sw' la = true ↔ p)))
  ∧ (∀ (s : State) (n : Nat) (cond : BitVec 4) (disp : BitVec 9),
    s.steady n = true →
    let c := s.ctx n
    let dest := c.pc + 2 + 2 * disp.signExtend 32
    let go := condHolds cond.toNat c.sw c.la
    (go = true → Transfers (.conditionalBranch cond false disp) s n (transferred c dest) [])
    ∧ (go = false → Transfers (.conditionalBranch cond false disp) s n { c.next with slot := .notTaken } [])
    ∧ (go = false → Transfers (.conditionalBranch cond true disp) s n { c.next with pc := c.pc + 4 } [Reg.PIP_DCMISS])
    ∧ (go = true → cond ≠ 15 → Transfers (.conditionalBranch cond true disp) s n (transferred c dest) [])
    ∧ (cond = 15 → Transfers (.conditionalBranch cond true disp) s n { c.next with pc := dest } [Reg.PIP_DCMISS]))

/-- JMP, CALL, RET, JMPI and CALLI (R130): the target, and the return word, which is the offset behind the slot. The
instruction in the slot executes, and the target follows it (R129, R130). -/
def Obligations.JumpsAndCalls : Prop :=
  (∀ (s : State) (n : Nat), s.steady n = true →
    let c := s.ctx n
    (∀ disp : BitVec 12, let dest := c.pc + 2 + 2 * disp.signExtend 32
      Transfers (.jmp disp) s n (transferred c dest) []
      ∧ (c.rc.length < 8 → Transfers (.call disp) s n (transferred { c with rc := (c.pc + 4) :: c.rc } dest) []))
    ∧ (∀ x r, c.rc = x :: r → Transfers .ret s n (transferred { c with rc := r } (x &&& 0xFFFFFFFE)) [])
    ∧ (∀ x r, c.oc = x :: r → bit x 0 = false →
      Transfers .jmpi s n (transferred { c with oc := r } x) []
      ∧ (c.rc.length < 8 → Transfers .calli s n (transferred { c with oc := r, rc := (c.pc + 4) :: c.rc } x) [])))
  ∧ (∀ (s : State) (n : Nat) (dest : Word), (s.ctx n).slot = .taken dest →
    fld (s.ctx n).prog 31 30 = 0 →
    ({ s with car := { s.car with ctxs := Map.set (fun _ => {}) s.car.ctxs n { s.ctx n with slot := .none, wrong := none } } } : State).steady
      n = true →
    Becomes .nop s n { (s.ctx n).next with pc := dest, slot := .none, wrong := none } [] [Reg.PIP_DCMISS] fun _ => True)

/-- SIGNAL sets the latch of source 120 + k; EVOUT writes the pins that its mask names (R34, R147, R193); IMB leaves no
line of its offset in the instruction cache or the line buffer (R179); CHIME puts a stimulus packet into the trace FIFO
while its port is enabled, and only pops its value otherwise (R147, R443). -/
def Obligations.OutputInstructions : Prop :=
  (∀ (s : State) (n : Nat), s.steady n = true →
    (∀ k : BitVec 3, bit s.car.latches (120 + k.toNat) = false →
      Becomes (.signal k) s n (s.ctx n).next [.latches] [] fun t =>
        ∀ j, j < 128 → bit t.car.latches j = (bit s.car.latches j || decide (j = 120 + k.toNat)))
    ∧ (∀ m x rest, (s.ctx n).oc = m :: x :: rest →
      Becomes .evout s n { s.ctx n with oc := rest }.next [.evtOut] [] fun t =>
        ∀ j, j < 8 → bit t.car.evtOut j = if bit m j then bit x j else bit s.car.evtOut j))
  ∧ (∀ (s : State) (n : Nat) (off : Word) (rest : List Word),
    s.steady n = true → s.clean = true → (s.ctx n).oc = off :: rest →
    let line := (dBase ((s.ctx n).seg 0) + off.toNat) / 32
    Becomes .imb s n { s.ctx n with oc := rest }.next [] [] fun t => t.core.lineBuf = none
      ∧ (off.toNat ≤ dLimit ((s.ctx n).seg 0) → line ∉ Map.get (fun _ => []) t.core.icache (line % 256)))
  ∧ (∀ (s : State) (n : Nat) (k : BitVec 5) (x : Word) (rest : List Word),
    s.steady n = true → (s.ctx n).oc = x :: rest →
    (bit (s.reg Reg.DBG_CHIMEEN) k.toNat = false → Computes (.chime k) s n { s.ctx n with oc := rest })
    ∧ (bit (s.reg Reg.DBG_CHIMEEN) k.toNat = true → s.traceOn = true → s.dbg.lostPkts = 0 → s.dbg.packets < 1000 →
      s.dbg.fifo.length ≤ 240 →
      Becomes (.chime k) s n { s.ctx n with oc := rest }.next [.dbg] [] fun t =>
        ∃ ts : List Byte, ts.length = 2 ∧ t.dbg.fifo = s.dbg.fifo
          ++ 0x61 :: (ts ++ [BitVec.ofNat 8 k.toNat, BitVec.ofNat 8 n, byteOf x.toNat 0, byteOf x.toNat 1, byteOf x.toNat 2, byteOf x.toNat 3])))

/-- An instruction takes the fault that R211 lists for what its context holds; an unassigned code raises the illegal-
instruction fault, and FAULT_ENTRY takes the fault it names (R126, R158, R215). -/
def Obligations.InstructionFaults : Prop :=
  (∀ (i : Instr) (s : State) (n v r : Nat),
    s.steady n = true → s.entryRoom n = true → raises i s n = some (v, r) → Enters i s n v r 15)
  ∧ (∀ (s : State) (n : Nat), s.steady n = true → s.entryRoom n = true →
    (∀ w : BitVec 16, assigned w.toNat = false → Enters (.illegalInstruction w) s n 1 0 15)
    ∧ (∀ vec reason seg, listedFault vec reason = true → vec ≠ 11 → vec ≠ 15 → vec ≠ 16 → (seg ≤ 7 ∨ seg = 15) →
      Enters (.faultEntry vec reason seg) s n vec reason seg))

/-- RETI pops the progress word, the fault word, SW and PC and goes on there (R95, R143). -/
def Obligations.ReturnFromFault : Prop := ∀ (s : State) (n : Nat) (pw fw sw pc : Word) (rest : List Word),
  s.steady n = true → (s.ctx n).rc = pw :: fw :: sw :: pc :: rest → fld pw 31 30 ≠ 3 →
  bit (s.reg Reg.DBG_VSTEP) 6 = false →
  let c := s.ctx n
  ∃ sw', (∀ j, j < 32 → bit sw' j = if j ≤ 8 then bit sw j else if j = 9 then bit sw 9 && bit c.ctrl 5
      else if j = 11 then (if bit c.sw 9 then bit sw 11 else bit c.sw 11) else bit c.sw j)
    ∧ Becomes .reti s n { c with
        pc := pc &&& 0xFFFFFFFE, sw := sw', rc := rest, prog := pw, icnt := c.icnt + 1, retired := c.retired + 1
        slot := if fld pw 31 30 = 2 then .taken (pw &&& 0x3FFFFE) else .none, noMatch := true } [] [] fun _ => True

/-! ### The end of an activation, networks, the contexts -/

/-- END_SCAN and ENDT end an activation: the context waits at its entry point with empty stacks, or is ready again where a
release is pending, and no context is on the core (R145, R190). With every other context waiting, idle or halted, the
output transfer begins (R12). -/
def Obligations.EndOfActivation : Prop := ∀ (s : State) (n : Nat) (i : Instr), s.steady n = true → n < 64 →
  s.dbg.grant = none → (∀ e ∈ s.stations, e.2.st ≠ .pending) → (i = .endScan ∧ n = 0 ∨ i = .endt ∧ n ≠ 0) → ((s.ctx n).pend = true → n ≠ 0) →
  let c := ended (s.ctx n)
  let others := (List.range 64).any fun m => decide (m ≠ n) && decide ((s.ctx m).st = .ready)
  Gives i s fun t => t.car.running = none
    ∧ (n ≠ 0 → (s.ctx n).pend = true → t.ctx n = { c with pend := false, st := .ready, seq := s.car.nextSeq })
    ∧ ((s.ctx n).pend = false → t.ctx n = { c with st := .waiting })
    ∧ t.scn.phase = (if others || (s.ctx n).pend then .program else .output)
    ∧ (∀ m, m ≠ n → t.ctx m = s.ctx m)
    ∧ Only [.contexts, .running, .arrivals, .retired, .caches, .scn] [Reg.PIP_ICMISS, Reg.SCN_PROGT] s t

/-- NETG evaluates its network and puts CYC as the last evaluation into the store buffer, as the two words of its 64-bit record
word, or skips to the network's end (R146, R165, R279). -/
def Obligations.NetworkGuard : Prop := ∀ (s : State) (n : Nat) (off : Word) (rest : List Word),
  s.steady n = true → s.imageOpen = true → s.scn.cyc < 2 ^ 56 → (s.ctx n).oc = off :: rest → off.toNat % 8 = 0 →
  let a := dBase ((s.ctx n).seg 1) + off.toNat
  let hdr := s.mread a 4
  let k := hdr / 2 ^ 23 % 32
  plainAccess s n 1 true true off.toNat 8 = true → plainAccess s n 1 true true (off.toNat + 8) 8 = true →
  hdr % 2 = 0 → k ≤ 16 → (∀ j, j < k → plainAccess s n 1 true false (off.toNat + 16 + 2 * j) 2 = true) →
  (evaluates s n a = true →
    Becomes .netg s n { s.ctx n with oc := rest }.next [.buffer] [Reg.SCN_NETEV, Reg.PIP_DCMISS] fun t => t.core.sb
      = [⟨a + 8, 4, BitVec.ofNat 32 (s.scn.cyc % 2 ^ 32), some n⟩, ⟨a + 12, 4, BitVec.ofNat 32 (s.scn.cyc / 2 ^ 32), some n⟩])
  ∧ (evaluates s n a = false →
    Becomes .netg s n { { s.ctx n with oc := rest }.next with pc := BitVec.ofNat 32 (hdr % 2 ^ 22) } []
      [Reg.SCN_NETSKIP, Reg.PIP_DCMISS] fun _ => True)

/-- CREL releases a context, CHLT halts one, CPRIO sets a priority and CSTAT reads a context's state, for a privileged
context (R155, R190, R193, R210). -/
def Obligations.ContextControl : Prop := ∀ (s : State) (n m : Nat) (x : Word) (rest : List Word),
  s.steady n = true → bit (s.ctx n).sw 9 = true → m < 64 → m ≠ n → (s.ctx n).oc = BitVec.ofNat 32 m :: x :: rest →
  let self := { s.ctx n with oc := x :: rest }.next
  let c := s.ctx m
  let others (t : State) := ∀ j, j ≠ n → j ≠ m → t.ctx j = s.ctx j
  (m ≠ 0 → c.st = .waiting → Gives .crel s fun t => t.ctx n = self ∧ others t
    ∧ t.ctx m = { c with st := .ready, seq := s.car.nextSeq } ∧ t.car.nextSeq = s.car.nextSeq + 1
    ∧ Only [.contexts, .arrivals, .retired, .caches] [Reg.PIP_ICMISS] s t)
  ∧ (m ≠ 0 → c.st = .ready → c.pend = false → Gives .crel s fun t => t.ctx n = self ∧ others t
    ∧ t.ctx m = { c with pend := true } ∧ Only [.contexts, .retired, .caches] [Reg.PIP_ICMISS] s t)
  ∧ (m ≠ 0 → (c.st = .waiting ∨ c.st = .ready) → Gives .chlt s fun t => t.ctx n = self ∧ others t
    ∧ t.ctx m = { c with st := .halted, pend := false } ∧ Only [.contexts, .retired, .caches, .fp] [Reg.PIP_ICMISS] s t
    ∧ (s.core.fpown = some m → t.core.pin = false) ∧ (s.core.fpown ≠ some m → t.core.pin = s.core.pin))
  ∧ (x.toNat ≤ 15 → Gives .cprio s fun t => t.ctx n = { s.ctx n with oc := rest }.next ∧ others t
    ∧ t.ctx m = { c with prio := x.toNat } ∧ Only [.contexts, .retired, .caches] [Reg.PIP_ICMISS] s t)
  ∧ (c.prio < 16 → ∃ st : Word, Computes .cstat s n { s.ctx n with oc := st :: x :: rest }
    ∧ fld st 2 0 = (match c.st with | .idle => 0 | .waiting => 1 | .ready => 2 | .halted => 4)
    ∧ bit st 3 = c.pend ∧ fld st 7 4 = c.prio ∧ bit st 8 = decide (s.core.fpown = some m)
    ∧ bit st 9 = (decide (s.core.fpown = some m) && s.core.pin) ∧ bit st 10 = c.fpv ∧ fld st 31 11 = 0)

/-- SEGLD copies a descriptor from the table into a selector with its index, and empties the stack that its segment holds
(R102, R103). -/
def Obligations.SegmentLoad : Prop := ∀ (s : State) (n : Nat) (k : BitVec 3) (idx : Word) (rest : List Word),
  s.steady n = true → s.clean = true → (s.dom 6).st = .run → bit (s.ctx n).sw 9 = true → (s.ctx n).oc = idx :: rest →
  k ≠ 0 → 0 < idx.toNat → idx.toNat < 256 →
  let lo := s.w32 (0x600000 + 8 * idx.toNat)
  let hi := s.w32 (0x600000 + 8 * idx.toNat + 4)
  let base := fld lo 22 0
  let limit := fld hi 21 0
  bit lo 29 = true → base % 8 = 0 → base + limit ≤ 0x793FFF → (0x6007FF < base ∨ base + limit < 0x600000 ∨ bit lo 27 = true) →
  ((k = 2 ∨ k = 3) → (limit + 1) % 32 = 0) →
  let d := (lo &&& 0x3FFFFFFF, setFld (hi &&& 0xFF3FFFFF) 31 24 idx.toNat)
  let c := { s.ctx n with oc := rest, segs := Map.set (fun _ => (0, 0)) (s.ctx n).segs k.toNat d }
  Becomes (.segld k) s n
    (if k = 2 then { c with osp := BitVec.ofNat 32 (limit + 1) } else if k = 3 then { c with rsp := BitVec.ofNat 32 (limit + 1) }
      else c).next [] [] fun _ => True

/-! ### Floating point -/

/-- A floating-point instruction of the context that owns the floating-point state (R119 to R123, R148). FUNPIN by the
owner takes the pin away; by any other context it changes nothing (R207). -/
def Obligations.FloatInstructions : Prop :=
  (∀ (i : Instr) (s : State) (n : Nat) (e : FpEffect),
    s.steady n = true → bit (s.ctx n).sw 10 = true → (s.ctx n).oc.length ≤ 15 → e.fp.length ≤ 8 →
    (floats i (s.ctx n).sw (s.ctx n).oc s.core.fp s.core.fpsw = some e →
      Becomes i s n { s.ctx n with oc := e.oc, sw := e.sw }.next [.fp] [] fun t => t.core.fp = e.fp
        ∧ t.core.fpsw = s.core.fpsw ||| e.fl ∧ t.core.fpown = s.core.fpown ∧ t.core.pin = s.core.pin)
    ∧ (∀ x rest, (s.ctx n).oc = x :: rest →
      Becomes .fsetsw s n { s.ctx n with oc := rest }.next [.fp] [] fun t => t.core.fp = s.core.fp
        ∧ t.core.fpsw = x.setWidth 5 ∧ t.core.fpown = s.core.fpown ∧ t.core.pin = s.core.pin)
    ∧ Becomes .fpin s n (s.ctx n).next [.fp] [] fun t => t.core.pin = true ∧ t.core.fp = s.core.fp
        ∧ t.core.fpsw = s.core.fpsw ∧ t.core.fpown = s.core.fpown)
  ∧ (∀ (s : State) (n : Nat), s.steady n = true →
    Becomes .funpin s n (s.ctx n).next [.fp] [] fun t => t.core.fp = s.core.fp ∧ t.core.fpsw = s.core.fpsw
      ∧ t.core.fpown = s.core.fpown ∧ t.core.pin = (s.core.pin && decide (s.core.fpown ≠ some n)))

/-- The ownership transfer to a context without a saved state: an owner's state goes to its save area, and the context
gains an empty state (R205, R206). -/
def Obligations.FloatOwnership : Prop := ∀ (s : State) (n : Nat), s.steady n = true → s.clean = true →
  (s.dom 6).st = .run → bit (s.ctx n).sw 10 = false → (s.ctx n).fpv = false → s.core.pin = false →
  s.core.fpHalf = none → s.core.fpSaved = none → s.core.fp.length ≤ 8 →
  bit (s.reg (Reg.CAR_CDFPSA + 32 * n)) 31 = true →
  fpsaValid (fld (s.reg (Reg.CAR_CDFPSA + 32 * n)) 22 0) = true →
  let gained (t : State) := t.core.fpown = some n ∧ t.core.fp = [] ∧ t.core.fpsw = 0
    ∧ t.ctx n = { s.ctx n with sw := setBit (s.ctx n).sw 10 true }
  (s.core.fpown = none → Gives (.fpOwnershipTransfer none) s fun t => gained t
    ∧ Only [.contexts, .caches, .fp] [Reg.PIP_ICMISS] s t)
  ∧ (∀ m, m ≠ n → s.core.fpown = some m → fpsaValid (fld (s.reg (Reg.CAR_CDFPSA + 32 * m)) 22 0) = true →
    let a := fld (s.reg (Reg.CAR_CDFPSA + 32 * m)) 22 0
    Gives (.fpOwnershipTransfer none) s fun t => gained t
      ∧ t.ctx m = { s.ctx m with fpv := true, sw := setBit (s.ctx m).sw 10 false }
      ∧ t.w32 a = BitVec.ofNat 32 (s.core.fpsw.toNat + 0x100 * s.core.fp.length)
      ∧ (∀ j, j < 8 → t.w32 (a + 4 + 4 * j) = s.core.fp.getD j 0)
      ∧ (∀ j, 9 ≤ j → j < 16 → t.w32 (a + 4 * j) = 0)
      ∧ (∀ b, b < a ∨ a + 64 ≤ b → t.byte b = s.byte b)
      ∧ Only [.contexts, .caches, .fp, .mem] [Reg.PIP_ICMISS] s t)

/-- The special operands of R120 to R122: NaNs, infinities and zeros. -/
def Obligations.FloatSpecialValues : Prop := ∀ (a b : Word) (neg : Bool),
  let nan (x : Word) := fld x 30 23 = 255 ∧ fld x 22 0 ≠ 0
  let quiet (x : Word) := bit x 22 = true
  let inf := fun neg : Bool => (if neg then 0xFF800000 else 0x7F800000 : Word)
  let number (x : Word) := fld x 30 23 ≠ 255
  ((nan a ∨ nan b) → (∀ r ∈ [Machine.fadd a b, Machine.fsub a b, Machine.fmul a b, Machine.fdiv a b], r.1 = 0x7FC00000
      ∧ (r.2 = 1 ∨ r.2 = 0) ∧ (r.2 = 1 ↔ (nan a ∧ ¬ quiet a) ∨ (nan b ∧ ¬ quiet b))))
  ∧ Machine.fadd (inf neg) (inf (!neg)) = (0x7FC00000, 1)
  ∧ Machine.fdiv (inf neg) (inf neg) = (0x7FC00000, 1)
  ∧ Machine.fmul (inf neg) 0 = (0x7FC00000, 1)
  ∧ Machine.fdiv 0 0 = (0x7FC00000, 1)
  ∧ (number a → fld a 30 0 ≠ 0 → Machine.fdiv a 0 = (inf (bit a 31), 2))
  ∧ (number a → Machine.fadd (inf neg) a = (inf neg, 0))
  ∧ (number a → fld a 30 0 ≠ 0 → bit a 31 = true → Machine.fsqrt a = (0x7FC00000, 1))

/-! ### Long instructions (R150 to R153) -/

/-- IMGSCAN gives the first point at 1, and IMGCMP the first point that differs, of the words they name (R152). -/
def Obligations.ImageSearch : Prop := ∀ (s : State) (n : Nat) (k p q : Word) (rest : List Word),
  s.steady n = true → s.imageOpen = true → wordsFit p k.toNat = true →
  let c := s.ctx n
  let w (x : Word) := x.toNat / 64
  let at' (x : Word) (j : Nat) := bit (s.img (w x + j / 64)) (j % 64)
  (c.oc = k :: p :: rest →
    ∃ r, FirstPoint p k.toNat (at' p) r
      ∧ Becomes (.imgscan none) s n { { c with oc := r :: rest }.next with prog := 0 } [] [] fun _ => True)
  ∧ (c.oc = k :: q :: p :: rest → wordsFit q k.toNat = true →
    ∃ r, FirstPoint p k.toNat (fun j => at' p j != at' q j) r
      ∧ Becomes (.imgcmp none) s n { { c with oc := r :: rest }.next with prog := 0 } [] [] fun _ => True)

/-- BLKFIL writes its word to every place of its range, and BLKMOV copies a range that does not overlap its destination,
as the memory stands once the store buffer has drained (R152). A long instruction that is interrupted at a safe point
keeps its place: operands and PROG as R150 to R152 give them, PC at the instruction. -/
def Obligations.BlockMoves : Prop :=
  (∀ (s : State) (n : Nat) (k dst x : Word) (sg d : BitVec 3) (rest : List Word),
    s.steady n = true → s.clean = true → (s.ctx n).oc = k :: dst :: x :: rest → dst.toNat + 4 * k.toNat < 2 ^ 32 →
    (∀ j, j < k.toNat → plainAccess s n d.toNat false true (dst.toNat + 4 * j) 4 = true) →
    let c := s.ctx n
    let a := dBase (c.seg d.toNat) + dst.toNat
    let b := dBase (c.seg sg.toNat) + x.toNat
    let out (t : State) (y : Nat → Word) := (∀ j, j < k.toNat → (t.drainAll).w32 (a + 4 * j) = y j)
      ∧ ∀ z, z < a ∨ a + 4 * k.toNat ≤ z → (t.drainAll).byte z = s.byte z
    Becomes (.blkfil d none) s n { { c with oc := rest }.next with prog := 0 } [.mem, .buffer] [Reg.PIP_SBFULL] (fun t =>
      out t fun _ => x)
    ∧ (x.toNat + 4 * k.toNat < 2 ^ 32 →
      (∀ j, j < k.toNat → plainAccess s n sg.toNat true false (x.toNat + 4 * j) 4 = true) →
      dNS (c.seg sg.toNat) = false → (b + 4 * k.toNat ≤ a ∨ a + 4 * k.toNat ≤ b) →
      Becomes (.blkmov sg d none) s n { { c with oc := rest }.next with prog := 0 } [.mem, .buffer]
        [Reg.PIP_SBFULL, Reg.PIP_DCMISS] fun t => out t fun j => s.w32 (b + 4 * j)))
  ∧ (∀ (s : State) (n : Nat) (k p : Word) (rest : List Word),
    s.steady n = true → s.imageOpen = true → s.core.accs = [] → wordsFit p k.toNat = true → 8 < k.toNat → (s.ctx n).oc = k :: p :: rest →
    (∀ j, j < 8 → s.img (p.toNat / 64 + j) = 0) →
    Becomes (.imgscan (some 1)) s n
      { s.ctx n with oc := (k - 8) :: (p + 512) :: rest, prog := 0x40000510, noMatch := false } [] [] fun _ => True)

/-- SAVEL and SAVEU write half of another context's slot behind the link word of a save area and push the link (R88,
R89, R153), as the memory stands once the store buffer has drained. -/
def Obligations.ContextSave : Prop := ∀ (s : State) (n m : Nat) (k : BitVec 3) (off : Word) (rest : List Word),
  s.steady n = true → s.clean = true → bit (s.ctx n).sw 9 = true → m < 64 → m ≠ n → (s.ctx n).prog = 0 →
  (s.ctx n).oc = off :: BitVec.ofNat 32 m :: rest → off.toNat % 128 = 0 → dNS ((s.ctx n).seg k.toNat) = false →
  (∀ j, j < 32 → plainAccess s n k.toNat true true (off.toNat + 4 * j) 4 = true) →
  let c := s.ctx n
  let a := dBase (c.seg k.toNat) + off.toNat
  let out (t : State) (ws : List Word) := (∀ j, j < 24 → (t.drainAll).w32 (a + 4 + 4 * j) = ws.getD j 0)
    ∧ ∀ z, z < a + 4 ∨ a + 100 ≤ z → (t.drainAll).byte z = s.byte z
  let c' := { { c with oc := s.w32 a :: rest, saveMark := none }.next with prog := 0 }
  Becomes (.savel k none) s n c' [.mem, .buffer] [Reg.PIP_SBFULL, Reg.PIP_DCMISS] (fun t => out t (s.ctx m).lowerWords)
  ∧ Becomes (.saveu k none) s n c' [.mem, .buffer] [Reg.PIP_SBFULL, Reg.PIP_DCMISS] fun t => out t (s.ctx m).upperWords

/-- An OEM instruction: the empty pattern raises vector 1, REASON 6, and a routine of END alone does nothing (R157,
R238). -/
def Obligations.OemInstruction : Prop := ∀ (s : State) (n : Nat) (k : BitVec 8) (stop : Option Nat),
  s.steady n = true → s.nano 0 = 0 → s.core.accs = [] →
  (s.micro (3584 + k.toNat) = 0x000200C1 → s.entryRoom n = true → Enters (.oemInstruction k stop) s n 1 6 15)
  ∧ (s.micro (3584 + k.toNat) = 0x0001C000 →
    Becomes (.oemInstruction k stop) s n { (s.ctx n).next with prog := 0 } [] [] fun _ => True)

/-! ### What the core does besides instructions -/

/-- A spill moves the 8 oldest words of a full cache to the memory part of its stack, the oldest to the highest offset; a
fill brings 8 words back behind those cached (R90, R92, R200); the memory part is as it stands once the store buffer has
drained (R165). -/
def Obligations.SpillsAndFills : Prop := ∀ (s : State) (n : Nat), s.steady n = true → s.clean = true →
  let c := s.ctx n
  let osp := c.osp.toNat
  let rsp := c.rsp.toNat
  let below (k sp : Nat) := 32 ≤ sp ∧ ∀ j, j < 8 → plainAccess s n k false true (sp - 32 + 4 * j) 4 = true
  let above (k sp : Nat) := ∀ j, j < 8 → plainAccess s n k true false (sp + 4 * j) 4 = true
  let words (k sp : Nat) := (List.range 8).map fun j => s.w32 (dBase (c.seg k) + sp + 4 * j)
  let kept (t : State) := t.car.retired = s.car.retired
  let buffered : List Part := [.mem, .buffer]
  (c.oc.length = 16 → below 2 osp →
    Becomes (.operandSpill 8) s n { c with oc := c.oc.take 8, osp := c.osp - 32 } buffered [Reg.PIP_SBFULL] fun t => kept t
      ∧ BytesWritten s t.drainAll (dBase (c.seg 2) + (osp - 32)) (wordsToBytes (c.oc.drop 8)))
  ∧ (c.oc.length < 8 → above 2 osp →
    Becomes (.operandFill 8) s n { c with oc := c.oc ++ words 2 osp, osp := c.osp + 32 } [] [Reg.PIP_DCMISS] kept)
  ∧ (c.rc.length = 8 → below 3 rsp →
    Becomes (.returnSpill 8) s n { c with rc := [], rsp := c.rsp - 32 } buffered [Reg.PIP_SBFULL] fun t => kept t
      ∧ BytesWritten s t.drainAll (dBase (c.seg 3) + (rsp - 32)) (wordsToBytes c.rc))
  ∧ (c.rc = [] → above 3 rsp →
    Becomes (.returnFill 8) s n { c with rc := words 3 rsp, rsp := c.rsp + 32 } [] [Reg.PIP_DCMISS] kept)

/-- Carillon takes the lowest latch and releases the context that its source is routed to, if any (R190, R193). A timer
that reaches its time fires its source and counts its next period (R195); the switch goes to the ready context of the
highest priority that arrived first, at a boundary that admits it (R196, R197), and ends a share slot of Lantern's
(R199); a share slot gives Lantern the restart of the independent watchdog (R199, R462). -/
def Obligations.CarillonHappenings : Prop :=
  (∀ (s : State) (j m : Nat), s.calm = true → j < 128 → bit s.car.latches j = true →
    (∀ i, i < j → bit s.car.latches i = false) → (j < 32 ∨ 48 ≤ j) →
    let c := s.ctx m
    let taken (t : State) := ∀ i, i < 128 → bit t.car.latches i = (bit s.car.latches i && decide (i ≠ j))
    let record (t : State) := t.car.pre = if j < 120 then s.car.pre ++ [⟨s.car.retired, m, j⟩] else s.car.pre
    let others (t : State) := ∀ k, k ≠ m → t.ctx k = s.ctx k
    let entry := s.reg (Reg.CAR_ROUTE + 4 * j)
    ((bit entry 7 = false ∨ fld entry 5 0 = 0) → Gives .latchTake s fun t => taken t ∧ Only [.latches] [] s t)
    ∧ (bit entry 7 = true → fld entry 5 0 = m → m ≠ 0 →
      (c.st = .waiting → Gives .latchTake s fun t => taken t ∧ record t ∧ others t
        ∧ t.ctx m = { c with st := .ready, seq := s.car.nextSeq } ∧ t.car.nextSeq = s.car.nextSeq + 1
        ∧ Only [.latches, .contexts, .arrivals, .recorded] [] s t)
      ∧ (c.st = .ready → c.pend = false → Gives .latchTake s fun t => taken t ∧ record t ∧ others t
        ∧ t.ctx m = { c with pend := true } ∧ Only [.latches, .contexts, .recorded] [] s t)))
  ∧ (∀ (s : State), s.calm = true →
    (∀ n t0, n < 16 → Map.get (fun _ => none) s.car.due n = some t0 → t0 ≤ s.clk.us → bit s.car.latches (48 + n) = false →
      Gives (.intervalTimer n) s fun t => Latched s t (48 + n)
        ∧ (∀ k, Map.get (fun _ => none) t.car.due k
          = if k = n then some (t0 + s.f (Reg.CAR_TMR + 4 * n) 23 0) else Map.get (fun _ => none) s.car.due k)
        ∧ Only [.latches, .timers] [] s t)
    ∧ (∀ m, m < 64 → s.reg Reg.EXC_MCPEND = 0 → (s.ctx m).st = .ready → (s.ctx m).dueVector = none →
      (∀ k, k < 64 → k ≠ m → (s.ctx k).st = .ready →
        (s.ctx k).prio < (s.ctx m).prio ∨ ((s.ctx k).prio = (s.ctx m).prio ∧ (s.ctx m).seq < (s.ctx k).seq)) →
      (s.car.running = none ∨ ∃ r, s.car.running = some r ∧ r ≠ m ∧ (s.ctx r).plain = true ∧ bit (s.ctx r).sw 8 = false) →
      Gives .contextSwitch s fun t => t.car.running = some m
        ∧ t.ctx m = { s.ctx m with sw := setBit (s.ctx m).sw 10 (decide (s.core.fpown = some m)) }
        ∧ (∀ k, k ≠ m → t.ctx k = s.ctx k) ∧ Only [.contexts, .running, .caches, .latency, .lantern] [] s t
        ∧ if s.core.lantern.slot then LanternDone s t else t.core.lantern = s.core.lantern)
    ∧ (∀ k, k < 64 → (s.slot k).st = 1 → s.car.running = none → s.reg Reg.EXC_MCPEND = 0 → 4 ≤ s.str.step → s.str.halt = false →
      s.pwr.sleep ≠ .asleep → s.scn.phase ≠ .housekeeping → s.lanternMasked = false → s.core.lantern.slot = false →
      s.hst.jobs = [] →
      Gives .lanternShareSlot s fun t => t.flt.wdtFrom = s.flt.ft ∧ t.flt.wdtWarned = false ∧ t.flt.ents = s.flt.ents
        ∧ t.flt.ft = s.flt.ft ∧ t.flt.wdtLimit = s.flt.wdtLimit ∧ Only (.flt :: lanternTraces) [] s t))

/-- A lock that is not through after 64 cc ends and is counted in class 9 (R144); a mask overrun takes vector 11 (R224,
R475). A held load gets its value: an uncached or NS load from its bank, a load that overlaps a younger store once the
store has drained (R140, R167, R168). -/
def Obligations.CoreHappenings : Prop :=
  (∀ (s : State) (n : Nat), s.calm = true → s.car.running = some n →
    let c := s.ctx n
    (s.silentClass 9 = true → fld c.sw 14 12 ≠ 0 → s.core.lantern.slot = false →
      Gives .lockOverrun s fun t => t.ctx n = { c with sw := setFld c.sw 14 12 0 } ∧ (∀ m, m ≠ n → t.ctx m = s.ctx m)
        ∧ Counted s t 9 ∧ Only [.contexts, .flt, .log] [Reg.FLT_CNT + 4 * 9, Reg.LOG_LOST] s t)
    ∧ (s.steady n = true → bit c.sw 8 = true → s.entryRoom n = true →
      let k := c.rc.length + 4
      Becomes .maskOverrun s n
        { c with
          pc := 0xB0, sw := c.sw &&& 0xFFFF8EFF, rc := [], rsp := c.rsp - BitVec.ofNat 32 (4 * k), prog := 0, chain := true
          noMatch := false }
        [.mem, .recorded] [Reg.EXC_GMOVR] fun t =>
          BytesWritten s t (s.frameAt n) (wordsToBytes (faultFrame c n 11 0 15 ++ c.rc))
          ∧ t.car.pre = s.car.pre ++ [⟨s.car.retired, n, 256 + 11⟩]
          ∧ t.reg Reg.EXC_GMOVR = BitVec.ofNat 32 (satInc (s.reg Reg.EXC_GMOVR).toNat 0xFFFFFFFF)))
  ∧ (∀ (s : State) (h : HeldLoad) (off : Word) (rest : List Word),
    s.core.held = some h → h.aborted = false →
    ({ s with core := { s.core with held := none } } : State).steady h.ctx = true → s.banks.ecc = [] →
    (s.ctx h.ctx).oc = off :: rest → fld (s.ctx h.ctx).prog 31 30 ≠ 1 → (s.ctx h.ctx).noMatch = false →
    (s.dom 6).st = .run → (s.dom 7).st = .run → 0x400000 ≤ h.pa → h.pa + h.size ≤ 0x6C0000 →
    let c := s.ctx h.ctx
    let gets (v : Nat) := { c with load := some (c.depth - 1, extended h.size h.signed v) }.next
    ((h.kind = .uncached ∨ h.kind = .ns) → s.core.sb = [] →
      Becomes .uncachedLoadReturn s h.ctx (gets (s.mread h.pa h.size)) [.held] [Reg.PIP_DCMISS] fun t => t.core.held = none)
    ∧ (∀ p z x i, h.kind = .overlap → s.core.sb = [⟨p, z, x, i⟩] → 0x400000 ≤ p → p + z ≤ 0x680000 →
      overlap h.pa h.size p z = true →
      Becomes .partialOverlapRelaunch s h.ctx (gets ((s.drainAll).mread h.pa h.size)) [.held, .buffer, .mem] [Reg.PIP_DCMISS]
        fun t => t.core.held = none ∧ t.core.sb = [] ∧ BytesWritten s t p (toBytes x.toNat z)))

/-- The oldest store is written to its bank (R166), a line fill puts its line in front of its set (R163, R170), a
corrected word is written back, and the patrol moves on in every bank (R258, R259). -/
def Obligations.BankHappenings : Prop := ∀ (s : State), s.calm = true →
  (∀ e rest, s.core.sb = e :: rest → s.banks.ecc = [] → (s.dom 6).st = .run → 0x400000 ≤ e.pa → e.pa + e.size ≤ 0x680000 →
    Gives .storeDrain s fun t => t.core.sb = rest ∧ BytesWritten s t e.pa (toBytes e.data.toNat e.size)
      ∧ Only [.mem, .buffer] [] s t)
  ∧ (∀ l, s.core.fills = [{ data := true, line := l }] → s.banks.ecc = [] → (s.dom 6).st = .run → 0x400000 ≤ 32 * l → 32 * l + 32 ≤ 0x680000 →
    Gives .lineFillComplete s fun t => t.core.fills = []
      ∧ (∀ j, Map.get (fun _ => []) t.core.dcache j = if j = l % 128
        then (l :: (Map.get (fun _ => []) s.core.dcache j).filter (· ≠ l)).take 2 else Map.get (fun _ => []) s.core.dcache j)
      ∧ t.core.icache = s.core.icache ∧ Only [.caches] [] s t)
  ∧ (∀ w rest, s.banks.writeback = w :: rest → w ∉ rest → 0x400000 ≤ 8 * w → 8 * w < 0x600000 → s.eccAt (8 * w) = .single →
    Gives (.correctedWriteback 2) s fun t => t.banks.writeback = rest
      ∧ (∀ a, t.eccAt a = if a / 8 = w then .none else s.eccAt a) ∧ Only [.banks] [] s t)
  ∧ (s.f Reg.MEM_CTRL 0 0 = 1 → s.banks.ecc = [] → (∀ d, d < 12 → (s.dom d).st = .run) →
    Gives .patrolScrub s fun t => Only [.banks] [] s t ∧ t.banks.ecc = [] ∧ t.banks.writeback = s.banks.writeback
      ∧ ∀ b, b < 8 → let p := Map.get (fun _ => 0) s.banks.patrol b
        Map.get (fun _ => 0) t.banks.patrol b = if (bankRange b).2 < (bankRange b).1 + 8 * (p + 1) then 0 else p + 1)

/-- The scrub passes good words and raises machine check 0 for a bad one (R228, R248, R252); Lantern's vector 1 clears the
pending conditions, and reloads the word of condition 0 from its image (R222, R249), as a keyed write of MCS_RELOAD
does (R254). -/
def Obligations.ControlStoreRepair : Prop := ∀ (s : State), s.calm = true → (s.dom 3).st = .run →
  let a := s.mcs.scrubMicro
  let b := s.mcs.scrubNano
  let on := { s.mcs with scrubMicro := (a + 1) % 4096, scrubNano := (b + 1) % 1024 }
  let free := s.car.running = none ∧ s.hst.interp = none ∧ 4 ≤ s.str.step ∧ s.str.halt = false ∧ s.pwr.sleep ≠ .asleep
  let reloaded (t : State) (i : Nat) := t.micro i = s.mread (0x700000 + 4 * i) 4 % 2 ^ 28 ∧ t.badAt false i = 0
    ∧ (∀ j, j ≠ i → t.micro j = s.micro j) ∧ t.mcs.nano = s.mcs.nano
  (s.f Reg.MCS_CTRL 0 0 = 1 → s.badAt false a = 0 → s.badAt true b = 0 →
    Gives .mcsScrub s fun t => t.mcs = on ∧ Only [.mcs] [] s t)
  ∧ (s.f Reg.MCS_CTRL 0 0 = 1 → s.badAt false a = 1 → s.badAt true b = 0 → a < 4096 → s.reg Reg.EXC_MCPEND = 0 →
    bit s.car.latches 108 = false →
    Gives .mcsScrub s fun t => t.mcs = on ∧ t.reg Reg.EXC_MCPEND = 1 ∧ t.reg Reg.MCS_PERR = BitVec.ofNat 32 (0x18000 + a)
      ∧ t.f Reg.MCS_PCOUNT 15 0 = satInc (s.f Reg.MCS_PCOUNT 15 0) 0xFFFF ∧ Latched s t 108
      ∧ Only [.mcs, .latches] [Reg.EXC_MCPEND, Reg.MCS_PERR, Reg.MCS_PCOUNT, Reg.EXC_MCINFO, Reg.EXC_MCADDR] s t)
  ∧ (free → s.reg Reg.EXC_MCPEND ≠ 0 → s.f Reg.EXC_MCPEND 0 0 = 0 → ∀ ok,
    Gives (.machineCheckEntry ok) s fun t => t.reg Reg.EXC_MCPEND = 0 ∧ Only lanternTraces [Reg.EXC_MCPEND] s t)
  ∧ (free → s.f Reg.EXC_MCPEND 0 0 = 1 → bit (s.reg Reg.MCS_PERR) 12 = false → s.banks.ecc = [] → s.silentClass 0 = true →
    Gives (.machineCheckEntry true) s fun t => t.reg Reg.EXC_MCPEND = 0 ∧ reloaded t (s.f Reg.MCS_PERR 11 0) ∧ Counted s t 0
      ∧ Only (.mcs :: .flt :: .log :: lanternTraces) [Reg.EXC_MCPEND, Reg.FLT_CNT, Reg.LOG_LOST] s t)
  ∧ (4 ≤ s.str.step → s.str.halt = false → s.pwr.sleep ≠ .asleep → s.banks.ecc = [] → ∀ i, i < 4096 →
    Gives (.mcsReloadWrite .lantern (BitVec.ofNat 32 (0xA5000000 + i)) true) s fun t => reloaded t i ∧ Only [.mcs] [] s t)

/-! ### The scan cycle -/

/-- A cycle starts (R269, R271, R286): CYC counts on, every I word takes its shadow with the forces over it, and a stamp
where it changes; every S word from 3 on takes its shadow. The input transfer ends with the release of context 0 (R12,
R271); the output transfer ends with every Q word, its forces over it, in the shadow output, and housekeeping begins
(R274, R286). -/
def Obligations.CyclePhases : Prop :=
  (∀ (s : State), s.calm = true → s.bare = true → s.scn.phase = .pad →
    s.scn.domStop = false → s.scn.tstart + s.scn.padMin ≤ s.clk.us →
    let cyc := (s.scn.cyc + 128 * s.scn.breaks + 1) % 2 ^ 56
    let len := min (s.clk.us - s.scn.tstart) 0xFFFFFFFF
    Gives .cycleStart s fun t => t.scn.phase = .input ∧ t.scn.mode = .run ∧ t.scn.cyc = cyc ∧ t.scn.tstart = s.clk.us
      ∧ t.scn.runCyc = s.scn.runCyc + 1 ∧ t.car.retired = 0 ∧ t.car.evtOut = s.car.evtOut ∧ (∀ n, t.ctx n = { s.ctx n with icnt := 0 })
      ∧ t.reg Reg.SCN_LASTCYC = BitVec.ofNat 32 len
      ∧ (∀ n, n < 4096 → t.img n = overlay s.forces n (s.shIn n)
        ∧ t.byte (stampAddr n) = if s.img n = overlay s.forces n (s.shIn n) then s.byte (stampAddr n) else BitVec.ofNat 8 cyc)
      ∧ t.img 16385 = BitVec.ofNat 64 (len + 2 ^ 32 * min (max s.scn.maxRun len) 0xFFFFFFFF)
      ∧ (∀ w, 3 ≤ w → w < 1024 → t.img (16384 + w) = s.shStat w)
      ∧ (∀ b, b < imgAddr 0 ∨ imgAddr 4096 ≤ b → b < imgAddr 16384 ∨ imgAddr 17408 ≤ b → b < stampAddr 0 ∨ stampAddr 4096 ≤ b →
        t.byte b = s.byte b)
      ∧ Only [.mem, .scn, .contexts, .retired, .recorded, .evtOut, .bcn, .flk] [Reg.SCN_LASTCYC, Reg.SCN_MAXCYC, Reg.OLC_SWCYC] s t)
  ∧ (∀ (s : State), s.calm = true → s.bare = true →
    (s.scn.phase = .input → s.scn.fires = [] → s.scn.errTasks = [] → s.car.latches = 0 → (s.ctx 0).st = .waiting →
      Gives .inputTransferEnd s fun t => t.scn.phase = .program ∧ t.scn.progFrom = s.clk.us
        ∧ t.ctx 0 = { s.ctx 0 with st := .ready, seq := s.car.nextSeq } ∧ t.car.nextSeq = s.car.nextSeq + 1
        ∧ (∀ n, n ≠ 0 → t.ctx n = s.ctx n) ∧ Only [.scn, .contexts, .arrivals] [] s t)
    ∧ (s.scn.phase = .output → s.scn.stopXfer = none →
      Gives .outputTransferEnd s fun t => t.scn.phase = .housekeeping ∧ t.scn.h1Done = true ∧ t.scn.outCyc = s.scn.cyc
        ∧ (∀ w, w < 4096 → t.shOut w = overlay s.forces (4096 + w) (s.img (4096 + w)))
        ∧ (∀ g, g < 64 → t.shStat (64 + g) = if s.f Reg.GOV_CTRL 0 0 = 1 then 0x800 else 0)
        ∧ (∀ b, b < shOutAddr 0 ∨ shOutAddr 4096 ≤ b → b < shStatAddr 64 ∨ shStatAddr 128 ≤ b → t.byte b = s.byte b)
        ∧ Only [.mem, .scn] [] s t))

/-- Housekeeping ends the cycle and the pad begins; a STOP that was asked for is entered with it (R275, R282). -/
def Obligations.HousekeepingEnds : Prop := ∀ (s : State), s.calm = true → s.bare = true → s.scn.phase = .housekeeping →
  s.scn.h1Done = true → s.car.running = none → s.readySet = [] → 4 ≤ s.str.step → s.str.halt = false →
  s.pwr.sleep ≠ .asleep → s.scn.domStop = false → s.reg Reg.EXC_MCPEND = 0 → s.lanternMasked = false →
  s.core.lantern.slot = false →
  let done (t : State) := t.scn.hkEnd = s.clk.us ∧ t.scn.h1Done = false ∧ t.flt.wdtFrom = s.flt.ft
    ∧ t.scn.cyc = s.scn.cyc ∧ (∀ b, b < shStatAddr 128 ∨ shStatAddr 138 ≤ b → t.byte b = s.byte b)
  (s.scn.stopReq = false → Gives .housekeepingSlot s fun t => done t ∧ t.scn.phase = .pad ∧ t.scn.mode = .run
    ∧ Only (.mem :: .scn :: .flt :: .bcn :: lanternTraces) [] s t)
  ∧ (s.scn.stopReq = true → s.log.queue.length < 17 → Gives .housekeepingSlot s fun t => done t ∧ t.scn.phase = .idle
    ∧ t.scn.mode = .stop ∧ t.scn.stopReq = false ∧ t.car.latches = 0 ∧ t.car.due = []
    ∧ t.log.queue = s.log.queue ++ [⟨s.clk.us % 2 ^ 48, s.str.startCount, 0x0004, 0x06, [1, 0, 0]⟩]
    ∧ bit (t.reg Reg.HST_ATTN) 0 = true
    ∧ Only (.mem :: .scn :: .flt :: .bcn :: .log :: .latches :: .timers :: lanternTraces) [Reg.HST_ATTN, Reg.HST_IRQ] s t)

/-- The cycle watchdog sets the latch of source 112 and makes vector 16 pending in context 0; after its grace the block
is in STOP; the cycle warning sets the latch of source 113 (R287, R288). -/
def Obligations.CycleWatchdog : Prop := ∀ (s : State), s.calm = true → s.bare = true → s.scn.phase = .program →
  (∀ n, s.car.running = some n → n ≠ 0 ∧ (s.ctx n).plain = true) →
  (s.scn.wdExp = none → s.scn.wdFrom + 1000 * fld s.scn.wdog 15 0 ≤ s.clk.us → bit s.car.latches 112 = false →
    s.silentClass 12 = true → (s.ctx 0).st = .ready →
    Gives .cycleWatchdogExpiry s fun t => t.scn.wdExp = some s.clk.us ∧ Latched s t 112 ∧ Counted s t 12
      ∧ t.ctx 0 = { s.ctx 0 with vec16 := true } ∧ (∀ n, n ≠ 0 → t.ctx n = s.ctx n)
      ∧ t.reg Reg.SCN_WDCNT = BitVec.ofNat 32 (satInc (s.reg Reg.SCN_WDCNT).toNat 0xFFFFFFFF)
      ∧ Only [.scn, .latches, .flt, .log, .contexts] [Reg.SCN_WDCNT, Reg.FLT_CNT + 4 * 12, Reg.LOG_LOST] s t)
  ∧ (∀ e, s.scn.wdExp = some e → e + 1000 * fld s.scn.wdog 31 16 ≤ s.clk.us → s.log.queue.length < 17 →
    Gives .watchdogGraceExpiry s fun t => t.scn.mode = .stop ∧ t.scn.phase = .idle ∧ t.car.running = none
      ∧ t.log.queue = s.log.queue ++ [⟨s.clk.us % 2 ^ 48, s.str.startCount, 0x0004, 0x06, [1, 0, 4]⟩]
      ∧ Only [.scn, .log, .running, .latches, .timers] [Reg.HST_ATTN, Reg.HST_IRQ] s t)
  ∧ (s.scn.cycwarn ≠ 0 → s.scn.warned = false → s.scn.tstart + s.scn.cycwarn ≤ s.clk.us → bit s.car.latches 113 = false →
    Gives .cycleWarning s fun t => t.scn.warned = true ∧ Latched s t 113
      ∧ t.reg Reg.SCN_LATECNT = BitVec.ofNat 32 (satInc (s.reg Reg.SCN_LATECNT).toNat 0xFFFFFFFF)
      ∧ Only [.scn, .latches] [Reg.SCN_LATECNT] s t)

/-! ### Field links -/

/-- A request leaves for the station that the round visits: IDENT, CONFIG for its next unit, or DATA with the output words
of the shadow output (R297 to R299, R304, R310). -/
def Obligations.LinkRequests : Prop := ∀ (s : State) (n a : Nat) (x : Stn) (cfg : Word),
  s.calm = true → s.banks.ecc = [] → s.bindings = [] → n < 8 → s.inRun 9 = true → s.inRun 7 = true → s.imageHeld = false →
  (s.link n).cfg = some cfg → bit cfg 0 = true → (s.link n).exch = none → (s.link n).held = none →
  (s.link n).strobe = none → s.visits n = some a → s.stn (32 * n + a) = some x →
  let seq := (s.link n).seq
  let sent (t : State) (e : Exch) := t.link n = { s.link n with exch := some e, seq := (seq + 1) % 16 }
    ∧ (∀ m, m ≠ n → t.link m = s.link m) ∧ Only [.flk] [] s t
  let ident := frameOf (a + 0x60 + 0x1000 * seq) []
  let config := frameOf (a + 0x20 + 0x1000 * seq + 0x40000)
    [x.dir.getD x.unit 0, x.wben.getD x.unit 0, x.safev.getD x.unit 0, BitVec.ofNat 64 (x.unit + 0x10000 * x.timeout)]
  let sts := decide (x.count = 0)
  let data := frameOf (a + 0x200 * sts.toNat + 0x1000 * seq + 0x10000 * x.w) ((List.range x.w).map fun u => s.shOut (x.qbase + u))
  (x.st = .down → x.ident = false → Gives (.identRequest n a) s fun t => sent t ⟨a, 3, seq, false, 0, ident⟩
    ∧ t.flk.stns = s.flk.stns)
  ∧ (x.st = .down → x.ident = true → Gives (.configRequest n a) s fun t => sent t ⟨a, 1, seq, false, x.unit, config⟩
    ∧ t.flk.stns = s.flk.stns)
  ∧ ((x.st = .up ∨ x.st = .pending) → Gives (.dataRequest n a) s fun t => sent t ⟨a, 0, seq, sts, 0, data⟩
    ∧ t.stn (32 * n + a) = some { x with count := (x.count + 1) % 16 }
    ∧ ∀ k, k ≠ 32 * n + a → t.stn k = s.stn k)

/-- A good response ends its exchange, and the last one of a round its round: DATA puts the inputs and the S word into the
shadows and clears MISS, IDENT identifies the station, the last CONFIG brings it up (R304, R306, R308, R311). A timeout of
an up station counts towards DROP, in FERR and in class 13, and fires the link's error source (R306, R312, R318); a frame
that the engine held back is written once the bank is free (R272). -/
def Obligations.LinkResponses : Prop :=
  (∀ (s : State) (n : Nat) (e : Exch) (x : Stn) (safe : Bool),
    s.calm = true → s.banks.ecc = [] → n < 8 → s.inRun 9 = true → s.inRun 7 = true → s.imageHeld = false →
    (s.link n).exch = some e → e.stn < 32 → e.seq < 16 → s.stn (32 * n + e.stn) = some x → x.w ≤ 16 → x.ibase + x.w ≤ 4096 →
    let k := 32 * n + e.stn
    let hdr := e.stn + 0x100 + 0x400 * safe.toNat + 0x1000 * e.seq
    let round := Reg.FLK_LROUND + 0x20 * n
    let ended' (t : State) := LinkAfter s t n e.stn ∧ ∀ j, j ≠ k → t.stn j = s.stn j
    let shadows (t : State) := ∀ b, b < shStatAddr 192 ∨ shStatAddr 512 ≤ b → t.byte b = s.byte b
    (∀ ins : List DWord, e.typ = 0 → (x.st = .up ∨ x.st = .pending) → ins.length = x.w →
      Gives (.dataResponse n (frameOf (hdr + 0x10000 * x.w) ins)) s fun t => ended' t
        ∧ (∃ y, t.stn k = some y ∧ y.st = .up ∧ y.miss = 0 ∧ y.live = true ∧ t.shStat (256 + k) = y.word
          ∧ bit y.word 1 = true ∧ bit y.word 2 = false ∧ bit y.word 4 = safe)
        ∧ (∀ j, j < x.w → t.shIn (x.ibase + j) = ins.getD j 0)
        ∧ (∀ b, b < shInAddr x.ibase ∨ shInAddr (x.ibase + x.w) ≤ b → b < shStatAddr 192 ∨ shStatAddr 512 ≤ b →
          t.byte b = s.byte b)
        ∧ Only [.flk, .mem] [Reg.FLK_LRET + 0x20 * n, round] s t)
    ∧ (e.typ = 3 → x.st = .down →
      (Gives (.identResponse n (frameOf (hdr + 0x60 + 0x10000) [BitVec.ofNat 64 (x.w * 0x10000)])) s fun t => ended' t ∧ shadows t
        ∧ t.stn k = some { x with ident := true, unit := 0, cfgerr := false, safe := safe } ∧ Only [.flk, .mem] [round] s t)
      ∧ ∀ w, w < 32 → w ≠ x.w → Gives (.identResponse n (frameOf (hdr + 0x60 + 0x10000) [BitVec.ofNat 64 (w * 0x10000)])) s
        fun t => ended' t ∧ shadows t ∧ t.stn k = some { x with ident := false, unit := 0, cfgerr := true, safe := safe }
          ∧ bit (t.reg Reg.FLK_ERR) n = true ∧ Only [.flk, .mem] [Reg.FLK_ERR, round] s t)
    ∧ (e.typ = 1 → x.st = .down → Gives (.configResponse n (frameOf (hdr + 0x20) [])) s fun t => ended' t ∧ shadows t
        ∧ t.stn k = (if e.unit + 1 < x.w then some { x with unit := e.unit + 1, cfgerr := false, safe := safe }
          else some { x with st := .up, live := false, count := 0, miss := 0, unit := 0, cfgerr := false, safe := safe })
        ∧ Only [.flk, .mem] [round] s t))
  ∧ (∀ (s : State) (n a : Nat) (x : Stn) (cfg : Word), s.calm = true → n < 8 →
    s.inRun 9 = true → s.banks.ecc = [] → (s.link n).cfg = some cfg → s.stn (32 * n + a) = some x → x.st = .up →
    let k := 32 * n + a
    (∀ e, (s.link n).exch = some e → e.stn = a → x.miss + 1 < fld cfg 7 4 → s.silentClass 13 = true →
      bit s.car.latches (4 * n) = false →
      Gives (.responseTimeout n) s fun t => LinkAfter s t n a
        ∧ t.stn k = some { x with miss := x.miss + 1, ferr := satInc x.ferr 0xFFFFFF } ∧ (∀ j, j ≠ k → t.stn j = s.stn j)
        ∧ Latched s t (4 * n) ∧ Counted s t 13
        ∧ t.reg (Reg.FLK_LTMO + 0x20 * n) = BitVec.ofNat 32 (satInc (s.reg (Reg.FLK_LTMO + 0x20 * n)).toNat 0xFFFFFFFF)
        ∧ t.reg (Reg.FLK_LFERR + 0x20 * n) = BitVec.ofNat 32 (satInc (s.reg (Reg.FLK_LFERR + 0x20 * n)).toNat 0xFFFFFFFF)
        ∧ Only [.flk, .latches, .flt, .log]
          [Reg.FLK_LROUND + 0x20 * n, Reg.FLK_LTMO + 0x20 * n, Reg.FLK_LFERR + 0x20 * n, Reg.FLT_CNT + 4 * 13, Reg.FLT_LASTSTN, Reg.LOG_LOST] s t)
    ∧ (∀ ins safe, (s.link n).held = some (a, ins, none, safe) → ins.length = x.w → x.ibase + x.w ≤ 4096 → s.inRun 7 = true →
      s.imageHeld = false → x.live = true → a < 32 →
      Gives (.heldFrameBurst n) s fun t => t.link n = { s.link n with held := none }
        ∧ t.stn k = some { x with miss := 0, safe := safe, retMark := x.retMark, dropMark := x.dropMark }
        ∧ (∀ j, j < x.w → t.shIn (x.ibase + j) = ins.getD j 0)
        ∧ (∀ b, b < shInAddr x.ibase ∨ shInAddr (x.ibase + x.w) ≤ b → b < shStatAddr 192 ∨ shStatAddr 512 ≤ b →
          t.byte b = s.byte b)
        ∧ Only [.flk, .mem] [] s t))

/-! ### External time and the governor -/

/-- An accepted edge of a mains source corrects its phase by a quarter of the error and its increment (R323); the first
edge sets the phase; two wraps without an edge lose the lock (R324). An encoder's count follows its quadrature, an
invalid transition sets ENCERR and loses the lock, an index edge sets the count to 0, and a source at rest only follows its pins
(R325); a crossing of a channel's phase latches a capture and fires its source (R327, R328). -/
def Obligations.BeatSources : Prop :=
  (∀ (s : State) (n cycles : Nat), s.calm = true → n < 4 → s.mainsRuns n = true →
    let x := (s.src n).advance cycles
    let soff := (s.reg (Reg.BEA_SOFF + 0x10 * n)).toNat
    let e := (BitVec.ofNat 32 (x.ph / 256) - BitVec.ofNat 32 soff).toInt
    let inc : Int := x.inc - e / 2 ^ 15
    let others (t : State) := ∀ m, m < 4 → m ≠ n → t.src m = if s.mainsRuns m then (s.src m).advance cycles else s.src m
    ((s.src n).first = true → Gives (.mainsEdge n cycles) s fun t => (t.src n).ph / 256 = soff ∧ (t.src n).first = false
      ∧ others t ∧ t.clk.us = s.clk.us + (s.bea.frac + cycles) / 100 ∧ Only [.bea, .clk, .flt] [] s t)
    ∧ ((s.src n).first = false → e.natAbs ≤ 2 ^ 22 → 494780 ≤ inc → inc ≤ 714683 → x.ph < 2 ^ 40 →
      Gives (.mainsEdge n cycles) s fun t => (((t.src n).ph / 256 : Nat) : Int) = (((x.ph / 256 : Nat) : Int) - e / 4) % 2 ^ 32
        ∧ (t.src n).inc = inc.toNat ∧ (t.src n).good = x.good + 1 ∧ (t.src n).wraps = 0
        ∧ (t.src n).lock = (x.lock || decide (7 ≤ x.good)) ∧ others t ∧ Only [.bea, .clk, .flt] [] s t)
    ∧ (2 ≤ (s.src n).wraps → (s.src n).lock = true → s.silentClass 16 = true → Gives (.missingEdgeLockLoss n) s fun t =>
      t.src n = { s.src n with lock := false, good := 0, clamped := 0, wraps := 0 } ∧ bit (t.reg Reg.BEA_STAT) (8 + n) = true
        ∧ Counted s t 16 ∧ (∀ m, m ≠ n → t.src m = s.src m)
        ∧ Only [.bea, .flt, .log] [Reg.BEA_STAT, Reg.FLT_CNT + 4 * 16, Reg.LOG_LOST] s t))
  ∧ (∀ (s : State) (n : Nat), s.calm = true → n < 4 → s.beatRuns = true →
    s.srcOn n = true → s.isEncoder n = true →
    let x := s.src n
    let cpr := s.f (Reg.BEA_CPR + 0x10 * n) 23 0
    let rest (t : State) := (∀ k, k ≠ n → t.src k = s.src k) ∧ t.bea.caps = s.bea.caps ∧ t.bea.strobed = s.bea.strobed
    (∀ a b, (x.a ≠ a ∧ x.b = b ∨ x.a = a ∧ x.b ≠ b) → 0 < cpr → x.cnt < cpr →
      let forward := aLeads x.a x.b a b != bit (s.reg (Reg.BEA_SCFG + 0x10 * n)) 4
      Gives (.encoderTransition n a b) s fun t => (t.src n).cnt = (if forward then (x.cnt + 1) % cpr else (x.cnt + cpr - 1) % cpr)
        ∧ (t.src n).a = a ∧ (t.src n).b = b ∧ (t.src n).rev = !forward ∧ (t.src n).lock = x.lock ∧ rest t ∧ Only [.bea] [] s t)
    ∧ Gives (.encoderTransition n (!x.a) (!x.b)) s (fun t => t.src n = { x with a := !x.a, b := !x.b, lock := false }
        ∧ bit (t.reg Reg.BEA_STAT) (4 + n) = true ∧ rest t ∧ Only [.bea] [Reg.BEA_STAT] s t)
    ∧ (bit (s.reg (Reg.BEA_SCFG + 0x10 * n)) 3 = true → Gives (.indexEdge n) s fun t =>
        t.src n = { x with cnt := 0, lock := true, prev := s.phase n } ∧ rest t ∧ Only [.bea] [] s t)
    ∧ (∀ m, m < 16 → s.f (Reg.BEA_CCFG + 0x20 * m) 1 0 = n → s.f (Reg.BEA_CCFG + 0x20 * m) 3 2 = 1 → x.rev = false →
      inStep x.prev (s.phase n) (s.reg (Reg.BEA_CMP + 0x20 * m)).toNat = true → bit s.bea.done m = false →
      bit s.car.latches (32 + m) = false → Map.get (fun _ => none) s.bea.caps m = none →
      let cap := s.f (Reg.BEA_CCFG + 0x20 * m) 6 5
      Gives (.compareMatch m false) s fun t => Latched s t (32 + m)
        ∧ Map.get (fun _ => none) t.bea.caps m
          = some ⟨s.phase cap, s.clk.us % 2 ^ 32, s.locked n, s.locked cap, false, false, s.freq n⟩
        ∧ bit t.bea.done m = true ∧ (∀ k, t.src k = s.src k) ∧ Only [.bea, .latches] [] s t))
  ∧ (∀ (s : State) (n : Nat) (a b : Bool), n < 4 → (s.beatRuns && s.srcOn n && s.isEncoder n) = false →
    Gives (.encoderTransition n a b) s fun t => t.src n = { s.src n with a := a, b := b } ∧ (∀ k, k ≠ n → t.src k = s.src k)
      ∧ t.bea = { s.bea with srcs := t.bea.srcs } ∧ Only [.bea] [] s t)

/-- A strobe that may start at its start point carries the ready values of its points, which are strobed as it ends; a point that has
waited STRTO is switched without phase (R331, R333 to R335). A member of a station that has gone safe is de-energised from its mark and
TIMEOUT on (R338); in HOLD or STOP sag starts at the pass that finds a supply report on an energised member (R342). -/
def Obligations.StrobesAndGovernor : Prop :=
  (∀ (s : State) (m link : Nat), s.calm = true → s.gov = {} →
    (s.strobeDue m link = true → (s.link link).exch = none → (s.link link).strobe = none →
      let ps := (s.strobePoints m link).map fun b => (b, bit s.bea.ready b.k)
      let starts (t : State) := t.link link = { s.link link with
          strobe := some (m, ps.map fun e => (e.1.k, e.2), strobeFrame m ps) }
        ∧ (∀ l, l ≠ link → t.link l = s.link l) ∧ t.flk.stns = s.flk.stns
        ∧ t.startPt m link = if s.startPt m link = some .after then none else some .done
      let enc := s.isEncoder (s.f (Reg.BEA_CCFG + 0x20 * m) 1 0)
      (enc = true → (s.startPt m link = some .may ∨ s.startPt m link = some .after) → Gives (.strobeStart m link) s fun t =>
        starts t ∧ t.bea = { s.bea with starts := t.bea.starts } ∧ Only [.flk, .bea] [] s t)
      ∧ (∀ r, enc = false → s.startPt m link = none → s.lowerStrobe m link = false → s.untilStrobe m link = some r →
        0 ≤ r → Gives (.strobeStart m link) s fun t => starts t
        ∧ t.clk.us = s.clk.us + (s.bea.frac + r.toNat) / 100 ∧ t.bea = { s.bea with
          srcs := t.bea.srcs, frac := t.bea.frac, starts := t.bea.starts }
        ∧ Only [.flk, .bea, .clk, .flt] [] s t))
    ∧ (∀ k v bytes, (s.link link).strobe = some (m, [(k, v)], bytes) → k < 256 → s.inRun 9 = true →
      Gives (.strobeEnd m link) s fun t => t.link link = { s.link link with strobe := none }
        ∧ (∀ j, j < 256 → bit t.bea.strobed j = if j = k then v else bit s.bea.strobed j)
        ∧ t.bea.ready = s.bea.ready ∧ t.bea.srcs = s.bea.srcs ∧ Only [.flk, .bea] [] s t)
    ∧ (∀ b t0, b ∈ s.phased → b.k < 256 → s.inRun 9 = true → Map.get (fun _ => none) s.bea.since b.k = some t0 →
      t0 + 1000 * s.f (Reg.BEA_CCFG + 0x20 * b.chan) 31 16 ≤ s.clk.us →
      (bit s.bea.ready b.k = false ∨ s.f (Reg.BEA_CCFG + 0x20 * b.chan) 7 7 = 1) →
      Gives (.strobeFallback b.k) s fun t =>
        (∀ j, j < 256 → bit t.bea.strobed j = if j = b.k then bit s.bea.ready b.k else bit s.bea.strobed j)
        ∧ t.reg Reg.BEA_FBCNT = BitVec.ofNat 32 (satInc (s.reg Reg.BEA_FBCNT).toNat 0xFFFFFFFF)
        ∧ Only [.bea] [Reg.BEA_FBCNT] s t))
  ∧ (∀ (s : State) (m : Mem), s.members = [m] → s.energised m.i = true → s.banks.ecc = [] →
    s.bcn.role = 0 → s.bcn.resync = .none → m.pin.key < 256 →
    (∀ x t0 later, s.stn m.pin.key = some x → x.safeAt = t0 :: later → t0 ≤ s.clk.us →
      Gives (.memberSafeTimeout (m.pin.key / 32) (m.pin.key % 32)) s fun t =>
        t.stn m.pin.key = some { x with safeAt := later } ∧ (∀ k, k ≠ m.pin.key → t.stn k = s.stn k)
        ∧ t.energised m.i = false ∧ t.offAt m.i = t0 ∧ (∀ i, i ≠ m.i → t.energised i = s.energised i ∧ t.offAt i = s.offAt i)
        ∧ t.gov.tab = s.gov.tab ∧ t.gov.grps = s.gov.grps ∧ Only [.flk, .gov] [] s t)
    ∧ ((s.scn.mode = .stop ∨ s.scn.mode = .hold) → s.govOn = true → s.inRun 7 = true → m.i < 4096 → m.bnd = none → m.point < 2 ^ 18 →
      (s.grp m.g).sag = false → bit (s.shStat (256 + m.pin.key)) (48 + m.pin.unit) = true →
      (∀ g, g < 64 → g ≠ m.g → (s.grp g).sag = false) →
      (s.f (Reg.GOV_GCFG + 0x10 * m.g) 9 8 = 0 → Gives .idleSagCheck s fun t =>
        t.grp m.g = { s.grp m.g with sag := true, seen := s.clk.us } ∧ t.gov.e = s.gov.e ∧ Only [.gov] [] s t)
      ∧ (s.f (Reg.GOV_GCFG + 0x10 * m.g) 9 8 = 1 → Gives .idleSagCheck s fun t =>
        t.grp m.g = { s.grp m.g with sag := true, seen := s.clk.us } ∧ t.energised m.i = false ∧ t.offAt m.i = s.clk.us
        ∧ t.shOut (m.point / 64) = setBit (s.shOut (m.point / 64)) (m.point % 64) false
        ∧ (∀ b, b < shOutAddr (m.point / 64) ∨ shOutAddr (m.point / 64) + 8 ≤ b → t.byte b = s.byte b)
        ∧ Only [.gov, .mem] [] s t)))

/-! ### The pair -/

/-- What a synchronised standby takes up from a record that arrives in its turn (R376, R377, R380 to R383): DELTA and
the housekeeping record are kept for their cycle, REL and HZN give entries and horizons, KEEP the partner's mode, and a
planned handoff in FAIL decides a takeover (R388, R389). STATE brings a standby into role 3 and fills its stores (R387);
HELLO tells what the partner holds, two primaries in RUN conflict (R387, R391); STATUS reports a divergence (R386),
TAKEN makes a standby unsynchronised (R391); a bad frame only counts, and the standby knows that one is missing (R375, R377). -/
def Obligations.BeaconReceives : Prop :=
  (∀ (s : State) (seq cyc : Nat) (ws : List DWord), s.bcn.rxlock = true →
    s.inRun 10 = true → s.bcn.role = 4 → s.bcn.taking = false → s.bcn.expect = some seq → seq < 65536 → s.bcn.held = [] →
    s.scn.mode = .run → s.scn.phase = .input → cyc < 65536 → ws.length ≤ 1024 →
    let b := { s.bcn with lastRx := some s.clk.us, expect := some ((seq + 1) % 65536), gapBad := false, lastAgain := none }
    let w := ws.headD 0
    let gives (i : Instr) (b' : Bcn) := Gives i s fun t => t.bcn = b' ∧ Only [.bcn] [] s t
    (s.bcn.deltas.length + 1 < s.f Reg.BCN_REPL 23 16 → fld (((s.bcn.deltas ++ [ws]).headD []).getD 1 0) 63 32 ≠ 0 →
      gives (.deltaReceived seq cyc ws) { b with
        deltas := s.bcn.deltas ++ [ws], lastDelta := s.clk.us, lastLen := fld (ws.getD 2 0) 63 32 })
    ∧ (ws.length = 1 → bit w 48 = false →
      let e : PreIn := ⟨cyc, fld w 31 0, fld w 37 32, fld w 39 38, fld w 46 40, bit w 47, none⟩
      gives (.relReceived seq cyc ws) { b with entries := s.bcn.entries ++ [e], horizons := s.bcn.horizons ++ [(cyc, fld w 31 0)] })
    ∧ (ws.length = 1 → gives (.hznReceived seq cyc ws) { b with
        horizons := s.bcn.horizons ++ [(cyc, fld w 31 0)]
        marks := if fld w 33 32 = 1 then s.bcn.marks ++ [(cyc, fld w 31 0)] else s.bcn.marks })
    ∧ (∀ last it, (∀ r ∈ s.bcn.hks, r.cyc ≠ cyc) → ws = BitVec.ofNat 64 it :: [] → it < 16 →
      gives (.hkReceived seq cyc last ws) { b with hks := s.bcn.hks ++ [⟨cyc, [⟨it, []⟩], last⟩] })
    ∧ (fld w 1 0 = 1 → gives (.keepReceived seq cyc ws) { b with partnerMode := 1, partnerRole := fld w 4 2 })
    ∧ (fld w 7 0 = 0x80 → ({ s with bcn := b } : State).busLive = true → s.bcn.decided = none →
      gives (.failReceived seq cyc ws) { b with decided := some s.clk.us }))
  ∧ (∀ (s : State) (seq cyc : Nat) (ws : List DWord), s.bcn.rxlock = true →
    s.inRun 10 = true → s.bcn.held = [] → s.bcn.resync = .none → s.traceOn = false → seq < 65536 → ws.length ≤ 1024 →
    let w := ws.headD 0
    let heard := { s.bcn with lastRx := some s.clk.us, expect := some ((seq + 1) % 65536), gapBad := false, lastAgain := none }
    (∀ a d, s.bcn.role = 2 → s.bcn.hello = none → ws = BitVec.ofNat 64 (256 * a) :: d → d.length = 512 → 0x400000 ≤ a →
      a + 4096 ≤ 0x6C0000 → a % 4096 = 0 → s.banks.ecc = [] →
      Gives (.stateReceived seq cyc ws) s fun t => t.bcn = { heard with
          role := 3, deltas := [], entries := [], horizons := [], marks := [], hks := [], closing := false }
        ∧ BytesWritten s t a (dwordsToBytes d) ∧ Only [.mem, .bcn, .caches] [] s t)
    ∧ (s.bcn.role = 1 → s.scn.mode = .run → s.bcn.partnerMode = 1 → fld w 2 0 = 1 → Gives (.helloReceived seq cyc ws) s fun t =>
        t.bcn = { heard with hello := some ws, partnerRole := 1 } ∧ bit (t.reg Reg.BCN_STAT) 5 = true
        ∧ Only [.bcn] [Reg.BCN_STAT] s t)
    ∧ (s.bcn.role = 2 → fld w 2 0 = 1 → s.holdsPartner ws = false → Gives (.helloReceived seq cyc ws) s fun t =>
        t.bcn = { heard with hello := some ws, partnerRole := 1, lastDiv := 7 } ∧ Only [.bcn] [] s t)
    ∧ (s.bcn.role = 1 → bit w 16 = false → fld w 23 20 ≠ 0 → Gives (.statusReceived seq cyc ws) s fun t =>
        t.bcn = { heard with partnerRole := fld w 19 17, diverged := true, sync := false } ∧ Only [.bcn] [] s t)
    ∧ (s.bcn.role = 4 → s.scn.mode = .stop → s.bcn.expect = some seq → s.hst.jobs = [] → Gives (.takenReceived seq cyc ws) s fun t =>
        t.bcn.role = 2 ∧ t.bcn.sync = false ∧ t.bcn.partnerRole = 1 ∧ t.bcn.deltas = [] ∧ Only [.bcn] [] s t)
    ∧ Gives .beaconBadFrame s (fun t => t.reg Reg.BCN_CRCERR = BitVec.ofNat 32 (satInc (s.reg Reg.BCN_CRCERR).toNat 0xFFFFFFFF)
        ∧ t.bcn = { s.bcn with gapBad := true } ∧ Only [.bcn] [Reg.BCN_CRCERR] s t))

/-- What a block of a pair sends (R374, R376, R377, R382): a frame takes the next SEQ and stays in the retain buffer. -/
def Obligations.BeaconSends : Prop := ∀ (s : State), s.beaconSends = true → s.bcn.role ≤ 4 →
  s.bcn.retain.foldl (fun n f => n + f.bytes) 0 + 100 ≤ 131072 →
  let sent (t : State) (typ : Nat) (ws : List DWord) := t.bcn.retain = s.bcn.retain ++ [⟨typ, true, true, s.bcn.seq, s.scn.cyc % 65536, ws⟩]
    ∧ t.bcn.seq = (s.bcn.seq + 1) % 65536 ∧ t.bcn.lastTx = s.clk.us ∧ t.bcn.role = s.bcn.role ∧ Only [.bcn] [] s t
  let ack := ((s.bcn.expect.getD 0) + 65535) % 65536
  (s.bcn.lastTx + 8 ≤ s.clk.us → Gives .keepSend s fun t =>
    sent t 0x07 [BitVec.ofNat 64 (s.scn.mode.code + 4 * s.bcn.role)])
  ∧ (s.bcn.sync = false → s.bcn.role ≠ 4 → Gives .helloSend s fun t => sent t 0x10 s.helloWords)
  ∧ (s.bcn.role = 4 → Gives .statusSend s fun t => sent t 0x11
      [BitVec.ofNat 64 (ack + 0x10000 * s.bcn.nak.toNat + 0x80000), BitVec.ofNat 64 s.bcn.sigCyc, s.bcn.sig])
  ∧ (s.bcn.role = 1 → s.bcn.sync = true → s.scn.mode = .run → s.car.retired ≠ s.bcn.lastHzn → s.car.pre.length ≤ s.bcn.relSent →
    Gives .hznSend s fun t => sent t 0x03 [BitVec.ofNat 64 (s.car.retired % 2 ^ 32)] ∧ t.bcn.lastHzn = s.car.retired)
  ∧ (s.bcn.rxlock = false → Gives .beaconRxlock s fun t => sent t 0x10 s.helloWords ∧ t.bcn.rxlock = true ∧ t.bcn.expect = s.bcn.expect)
  ∧ Gives .beaconRxlockLoss s (fun t => t.bcn = { s.bcn with rxlock := false, gapBad := true } ∧ Only [.bcn] [] s t)

/-- The phases of a resynchronisation (R387), and when a standby takes over or lets go (R389, R390). A standby applies a
preemption entry at its count (R194, R381): the release of its context. -/
def Obligations.ResyncAndTakeover : Prop :=
  (∀ (s : State), s.traceOn = false →
    let busq := s.f Reg.BCN_TIME 31 16
    (s.bcn.resync = .bulk → s.beaconSends = true → Gives .bulkPhaseComplete s fun t => t.bcn.resync = .converge
      ∧ t.bcn.passSet = s.bcn.dirty ∧ t.bcn.dirty = [] ∧ t.bcn.passes = 0 ∧ t.bcn.seq = (s.bcn.seq + 704) % 65536
      ∧ t.bcn.role = s.bcn.role ∧ Only [.bcn] [] s t)
    ∧ (s.bcn.resync = .converge → s.bcn.passSet = [] → s.scn.mode = .run → 4 * s.bcn.dirty.length ≤ s.f Reg.BCN_RSYNC 7 0 →
      Gives .convergePassComplete s fun t => t.bcn = { s.bcn with resync := .final } ∧ Only [.bcn] [] s t)
    ∧ (s.bcn.resync = .converge → s.bcn.passSet = [] → s.f Reg.BCN_RSYNC 7 0 < 4 * s.bcn.dirty.length →
      s.bcn.passes + 1 < s.f Reg.BCN_RSYNC 11 8 → Gives .convergePassComplete s fun t =>
        t.bcn = { s.bcn with passes := s.bcn.passes + 1, passSet := s.bcn.dirty, dirty := [] } ∧ Only [.bcn] [] s t)
    ∧ (∀ t0 h, s.bcn.retryAt = some t0 → t0 ≤ s.clk.us → s.bcn.hello = some h → s.bcn.role = 1 →
      (fld (h.getD 0 0) 2 0 = 2 ∨ fld (h.getD 0 0) 2 0 = 3) →
      s.bcn.resync = .none → s.bcn.sync = false → s.scn.mode = .run → s.partnerHolds h = true → Gives .resyncRetry s fun t =>
        t.bcn = { s.bcn with retryAt := none, resync := .bulk, passes := 0, dirty := [], passSet := [] } ∧ Only [.bcn] [] s t)
    ∧ (∀ r, s.bcn.role = 4 → s.bcn.taking = false → s.bcn.decided = none → s.f Reg.BCN_CFG 1 1 = 1 → s.bcn.lastRx = some r →
      r + s.sil ≤ s.clk.us → s.scn.mode = .run → s.scn.phase = .input →
      (s.busLive = false → Gives .takeoverSilence s fun t => t.bcn = { s.bcn with taking := true } ∧ t.car.latches = 0
        ∧ Only [.bcn, .latches, .flk] [] s t)
      ∧ (s.busLive = true → Gives .takeoverSilence s fun t => t.bcn = { s.bcn with decided := some s.clk.us } ∧ Only [.bcn] [] s t))
    ∧ (∀ d q, s.bcn.decided = some d → s.bcn.role = 4 → s.scn.mode = .run → s.scn.phase = .input → s.bcn.busSeen = some q →
      q + busq ≤ s.clk.us → Gives .busGuardClear s fun t => t.bcn = { s.bcn with taking := true, decided := none }
        ∧ t.car.latches = 0 ∧ Only [.bcn, .latches, .flk] [] s t)
    ∧ (∀ d, s.bcn.decided = some d → s.bcn.role = 4 → s.scn.mode = .stop → s.busLive = true →
      d + s.sil + busq ≤ s.clk.us → Gives .busGuardTimeout s fun t => t.bcn.role = 2 ∧ t.bcn.decided = none ∧ t.bcn.lastRx = none
        ∧ Only [.bcn] [] s t))
  ∧ (∀ (s : State) (e : PreIn) (rest : List PreIn), s.bcn.role = 4 → s.bcn.taking = false →
    s.scn.mode = .run → s.scn.phase = .output → s.traceOn = false → s.car.running = none → s.bcn.entries = e :: rest →
    e.cyc = s.scn.cyc % 65536 → e.count = s.car.retired → e.kind = 0 → e.cap = none → e.ctx < 64 →
    (s.ctx e.ctx).st = .waiting →
    Gives .preemptionEntryApply s fun t => t.bcn = { s.bcn with entries := rest }
      ∧ t.ctx e.ctx = { s.ctx e.ctx with st := .ready, seq := s.car.nextSeq } ∧ (∀ n, n ≠ e.ctx → t.ctx n = s.ctx n)
      ∧ t.car.nextSeq = s.car.nextSeq + 1 ∧ Only [.bcn, .contexts, .arrivals] [] s t)

/-! ### The cascade -/

/-- The Chain (R393 to R395): tokens and slots are kept and passed on, and the two waits end. -/
def Obligations.ChainRows : Prop := ∀ (s : State), s.chainOn = true → s.pwr.por = false →
  let me := s.f Reg.PWR_STRAP 2 0
  let only (t : State) := Only [.chn] [] s t
  (∀ orig rnd valid, s.chn.rxlock = true → rnd < 2 ^ 32 → valid < 256 →
    (orig = me → Gives (.tokenReceived orig rnd valid) s fun t => only t
      ∧ t.chn = { s.chn with tokenBack := true, ringok := s.chn.ringok || decide (rnd = s.chn.rnd) })
    ∧ (orig = 0 → me ≠ 0 → s.chn.token = none → Gives (.tokenReceived orig rnd valid) s fun t => only t
      ∧ t.chn = { s.chn with tx := some ⟨1, 0, rnd, [BitVec.ofNat 64 valid]⟩, token := some (rnd, valid), alone := false }))
  ∧ (∀ orig rnd ws, s.chn.rxlock = true → orig < 8 → orig ≠ me → rnd < 2 ^ 32 → ws.length = 64 →
    Gives (.slotReceived orig rnd ws) s fun t => only t
      ∧ t.chn = { s.chn with tx := some ⟨2, orig, rnd, ws⟩, got := ((orig, rnd, ws) :: s.chn.got).take 32 })
  ∧ (s.chn.rxlock = true → Gives .chainBadFrame s fun t =>
      t.reg Reg.CHN_CRCERR = BitVec.ofNat 32 (satInc (s.reg Reg.CHN_CRCERR).toNat 0xFFFFFFFF) ∧ Only [] [Reg.CHN_CRCERR] s t)
  ∧ (me = 0 → s.scn.mode = .run → s.scn.phase = .pad →
    max s.scn.hkEnd (s.scn.tstart + s.scn.padMin) + s.f Reg.CHN_TIME 15 0 ≤ s.clk.us →
    Gives .slotWaitTimeout s fun t => only t ∧ t.chn = { s.chn with waited := true })
  ∧ (me ≠ 0 → s.scn.mode = .run → s.scn.phase = .pad → s.chn.token = none → s.scn.hkEnd + s.f Reg.CHN_TIME 31 16 ≤ s.clk.us →
    Gives .tokenTimeout s fun t => only t ∧ t.chn = { s.chn with alone := true })
  ∧ Gives .chainRxlock s (fun t => only t ∧ t.chn = { s.chn with rxlock := true })
  ∧ Gives .chainRxlockLoss s (fun t => only t ∧ t.chn = { s.chn with rxlock := false })

/-! ### The debug unit -/

/-- The connection and the requests that halt nothing (R426 to R434): a sync in range connects, a break or a long high time
disconnects; ID, STATUS, READ, READ_LIVE and WRITE answer with the data or the refusal of their rules, and a repeated
request gets its stored response. -/
def Obligations.DebugRequests : Prop := ∀ (s : State) (k a : Nat) (v : Word), s.inRun 11 = true → s.banks.ecc = [] →
  s.core.sb = [] → (s.dom 6).st = .run → k < 16 → 0x400000 ≤ a → a < 0x600000 → a % 4 = 0 →
  let link (c : Instr) (d : Dbg) := Gives c s fun t => t.dbg = d ∧ Only [.dbg] [] s t
  let after (q : DbgReq) (ack : Nat) (d : Option Word) := { s.dbg with req := some q, resp := some (ack, d), tx := some (k, ack, d) }
  let rd := s.w32 a
  (∀ ns, link (.clapSync ns) (if 4000 ≤ ns ∧ ns ≤ 32000 then { s.dbg with conn := true, unitT := ns } else s.dbg))
  ∧ link .clapBreak { s.dbg with conn := false } ∧ link .clapIdleTimeout { s.dbg with conn := false }
  ∧ (s.dbg.conn = true →
    link (.clapBadRequest k) { s.dbg with tx := some (k, 6, none) }
    ∧ (s.dbg.req ≠ some ⟨k, 0, 0, 0⟩ →
      link (.dbgId k) (after ⟨k, 0, 0, 0⟩ 0 (some (setFld (s.reg Reg.SYS_ID) 23 16 Config.stepping))))
    ∧ (s.dbg.req ≠ some ⟨k, 1, 0, 0⟩ → Gives (.dbgStatus k) s fun t => Only [.dbg] [] s t
      ∧ ∃ w : Word, t.dbg = after ⟨k, 1, 0, 0⟩ 0 (some w)
        ∧ (s.dbgLevel ≤ 2 → (∀ n, s.dbg.ctx = some n → n < 64) → fld w 1 0 = s.dbgLevel ∧ bit w 2 = true
          ∧ bit w 3 = decide (s.core.halt = .debug) ∧ bit w 4 = s.dbg.hreq.isSome ∧ bit w 5 = s.dbg.step.isSome
          ∧ fld w 13 8 = s.dbg.ctx.getD 0))
    ∧ (s.dbg.req ≠ some ⟨k, 2, a, 0⟩ → link (.dbgRead k 0 a)
      (if s.dbgLevel = 0 then after ⟨k, 2, a, 0⟩ 2 none else after ⟨k, 2, a, 0⟩ 0 (some rd)))
    ∧ (s.dbg.req ≠ some ⟨k, 3, a, 0⟩ → link (.dbgReadLive k 0 a)
      (if s.dbgLevel < 2 then after ⟨k, 3, a, 0⟩ 2 none else after ⟨k, 3, a, 0⟩ 0 (some rd)))
    ∧ (s.dbg.req ≠ some ⟨k, 4, a, v⟩ →
      (s.dbgLevel < 2 → link (.dbgWrite k 0 a v) (after ⟨k, 4, a, v⟩ 2 none))
      ∧ (s.dbgLevel = 2 → s.bcn.resync = .none → Gives (.dbgWrite k 0 a v) s fun t => t.dbg = after ⟨k, 4, a, v⟩ 0 none
        ∧ BytesWritten s t a (toBytes v.toNat 4) ∧ t.core.lineBuf = none
        ∧ a / 32 ∉ Map.get (fun _ => []) t.core.icache (a / 32 % 256) ∧ Only [.mem, .caches, .dbg] [] s t))
    ∧ (∀ r, s.dbg.req = some ⟨k, 4, a, v⟩ → s.dbg.resp = some r →
      link (.dbgWrite k 0 a v) { s.dbg with tx := some (k, r.1, if r.1 = 0 then r.2 else none) }))

/-- The debug halt (R435 to R438): HALT waits, the halt is taken at a boundary and brings HOLD, STEP gives the core to one
context, its end halts again, and RESUME returns to RUN with source 118. DBG_VSTEP is a context's register (R441). -/
def Obligations.DebugHalts : Prop := ∀ (s : State) (k : Nat), s.inRun 11 = true → k < 16 → s.traceOn = false → s.bare = true →
  s.bcn.role = 0 → s.bcn.resync = .none → s.pwr.por = false →
  let wait (op : Nat) (d : Dbg) := { d with req := some ⟨k, op, 0, 0⟩, resp := none, tx := some (k, 1, none) }
  let told (op : Nat) (d : Dbg) := { d with req := some ⟨k, op, 0, 0⟩, resp := some (0, none), tx := some (k, 0, none) }
  let denied (op : Nat) (d : Dbg) := { d with req := some ⟨k, op, 0, 0⟩, resp := some (2, none), tx := some (k, 2, none) }
  let asked (op : Nat) := s.dbg.conn = true ∧ s.dbg.req ≠ some ⟨k, op, 0, 0⟩
  let changes (t : State) (a b : Nat) := t.log.queue = s.log.queue ++ [⟨s.clk.us % 2 ^ 48, s.str.startCount, 0x0004, 0x06,
    [BitVec.ofNat 8 a, BitVec.ofNat 8 b, 1]⟩] ∧ bit (t.reg Reg.HST_ATTN) 0 = true
  let held (g : Option Grant) := g.bind fun g => if g.wdhold then some (s.flt.wdtFrom + s.flt.wdtLimit - s.flt.ft) else none
  (∀ op c, (op, c) ∈ [(5, Instr.dbgHalt k), (6, .dbgResume k), (7, .dbgStep k)] → asked op → s.dbgLevel < 2 →
    Gives c s fun t => t.dbg = denied op s.dbg ∧ Only [.dbg] [] s t)
  ∧ (asked 5 → s.dbgLevel = 2 → s.core.halt ≠ .debug → s.dbg.hreq = none → Gives (.dbgHalt k) s fun t =>
    t.dbg = wait 5 { s.dbg with hreq := some (0, 0) } ∧ Only [.dbg] [] s t)
  ∧ (∀ r, s.dbg.hreq = some r → s.calm = true → s.scn.phase = .program → s.core.sb = [] → s.log.queue.length < 17 →
    (∀ n, s.car.running = some n → (s.ctx n).lkc = 0 ∧ (s.ctx n).slot = .none ∧ (s.ctx n).load = none ∧ (s.ctx n).chain = false) →
    s.lanternMasked = false → s.scn.hsafe = false → s.dbg.req = none →
    Gives .debugHaltTaken s fun t => t.core.halt = .debug ∧ t.scn = { s.scn with mode := .hold, holdReq := false }
      ∧ t.dbg = { s.dbg with
        hreq := none, ctx := s.car.running, back := .run, step := none, stepDone := false, wdLeft := held s.dbg.grant }
      ∧ changes t 1 2 ∧ Only [.halt, .scn, .dbg, .log, .caches] [Reg.HST_ATTN, Reg.HST_IRQ] s t)
  ∧ (s.core.halt = .debug → s.dbg.back = .run → s.scn.mode = .hold → s.scn.phase = .program → s.dbg.step = none →
    s.dbgLevel = 2 → ∀ n, s.dbg.ctx = some n → s.car.running = some n →
    (asked 7 → Gives (.dbgStep k) s fun t =>
      t.dbg = wait 7 { s.dbg with step := some n, stepDone := false, ctx := some n } ∧ Only [.dbg] [] s t)
    ∧ (asked 6 → s.log.queue.length < 17 → bit s.car.latches 118 = false → Gives (.dbgResume k) s fun t =>
      t.core.halt = .none ∧ t.scn = { s.scn with
        mode := .run, holdRel := true, wdFrom := s.clk.us, wdExp := s.scn.wdExp.map fun _ => s.clk.us } ∧ Latched s t 118
      ∧ t.dbg = told 6 { s.dbg with hreq := none, ctx := none, back := .none, step := none, stepDone := false, wdLeft := none }
      ∧ t.ctx n = { s.ctx n with noMatch := true } ∧ (∀ m, m ≠ n → t.ctx m = s.ctx m)
      ∧ t.flt = (match s.dbg.wdLeft with
        | none => s.flt
        | some l => { s.flt with wdtFrom := s.flt.ft + max l 10000 - s.flt.wdtLimit })
      ∧ changes t 2 1 ∧ Only [.halt, .scn, .dbg, .log, .latches, .contexts, .flt] [Reg.HST_ATTN, Reg.HST_IRQ] s t))
  ∧ (∀ n, s.dbg.step = some n → s.dbg.stepDone = true → s.core.sb = [] → s.dbg.req = none → Gives .stepComplete s fun t =>
    t.dbg = { s.dbg with hreq := none, step := none, stepDone := false, ctx := s.car.running }
    ∧ (∀ m, t.ctx m = if s.car.running = some m then (s.ctx m).land else s.ctx m) ∧ Only [.contexts, .dbg] [] s t)
  ∧ (∀ n v, s.scn.mode = .run → s.core.halt = .none → s.core.lantern.slot = false → s.car.running = some n →
    bit (s.ctx n).sw 9 = true →
    Gives (.dbgVstepWrite .context v) s fun t => fld (t.reg Reg.DBG_VSTEP) 6 0 = fld v 6 0 ∧ Only [] [Reg.DBG_VSTEP] s t)

/-! ### The log, the fault classes, the independent watchdog -/

/-- The log writer appends its oldest record at HEAD, or keeps a critical one in the side buffer while the log is frozen
(R448, R451, R452); a lasting class ends (R457); the independent watchdog warns at half its period (R462); FLT_CLR clears
every class (R461). -/
def Obligations.LogAndWatchdog : Prop := ∀ (s : State), s.calm = true →
  (∀ r rest, s.log.queue = r :: rest →
    let critical := r.code / 0x8000 % 2 = 1
    let h := s.f Reg.LOG_HEAD 7 0
    (s.f Reg.LOG_STAT 1 0 = 0 → Gives .logAppend s fun t => t.log = { s.log with queue := rest }
      ∧ BytesWritten s t (0x750000 + 64 * h) r.bytes ∧ t.f Reg.LOG_HEAD 7 0 = (h + 1) % 256
      ∧ (s.f Reg.LOG_HEAD 24 16 ≤ 256 → t.f Reg.LOG_HEAD 24 16 = min (s.f Reg.LOG_HEAD 24 16 + 1) 256)
      ∧ t.reg Reg.LOG_SEQ = s.reg Reg.LOG_SEQ + 1
      ∧ bit (t.reg Reg.HST_ATTN) 2 = (bit (s.reg Reg.HST_ATTN) 2 || (decide critical && bit (s.reg Reg.LOG_CTRL) 0))
      ∧ (∀ a, t.eccAt a = if 0x750000 + 64 * h ≤ a ∧ a < 0x750000 + 64 * h + 64 then .none else s.eccAt a)
      ∧ Only [.mem, .log, .banks] [Reg.LOG_HEAD, Reg.LOG_SEQ, Reg.HST_ATTN, Reg.HST_IRQ] s t)
    ∧ (s.f Reg.LOG_STAT 1 0 ≠ 0 → critical → s.log.side.length < 8 →
      Gives .logAppend s fun t => t.log = { s.log with queue := rest, side := s.log.side ++ [r] } ∧ Only [.log] [] s t)
    ∧ (s.f Reg.LOG_STAT 1 0 ≠ 0 → (¬ critical ∨ 8 ≤ s.log.side.length) →
      Gives .logAppend s fun t => t.log = { s.log with queue := rest }
        ∧ t.reg Reg.LOG_LOST = BitVec.ofNat 32 (satInc (s.reg Reg.LOG_LOST).toNat 0xFFFFFFFF) ∧ Only [.log] [Reg.LOG_LOST] s t))
  ∧ (∀ c stn, c ≤ 31 → stn < 512 → (s.fltEnt c stn).lasting = true → Gives (.classLastingEnd c stn) s fun t =>
    (t.fltEnt c stn).lasting = false ∧ (∀ d k, (d, k) ≠ (c, stn) → k < 1024 → t.fltEnt d k = s.fltEnt d k)
    ∧ s.clk.us ≤ t.clk.us ∧ t.flt.ft - s.flt.ft = t.clk.us - s.clk.us ∧ t.regs = s.regs
    ∧ Only [.flt, .clk, .bea] [] s t)
  ∧ (s.flt.wdtWarned = false → s.dbg.wdLeft = none → s.flt.wdtFrom + s.flt.wdtLimit / 2 ≤ s.flt.ft →
    s.log.queue.length < 17 → bit s.car.latches 114 = false → s.silentClass 20 = true →
    Gives .watchdogWarning s fun t => t.flt.wdtWarned = true ∧ bit (t.reg Reg.FLT_WDT) 16 = true ∧ Latched s t 114
      ∧ Counted s t 20 ∧ (∃ l, t.log.queue = s.log.queue ++ ⟨s.clk.us % 2 ^ 48, s.str.startCount, 0x8051, 0x110,
        toBytes (min ((s.flt.wdtFrom + s.flt.wdtLimit - s.flt.ft) / 1000) 0xFFFF) 2⟩ :: l)
      ∧ Only [.flt, .latches, .log] [Reg.FLT_WDT, Reg.FLT_CNT + 4 * 20, Reg.LOG_LOST] s t)
  ∧ (4 ≤ s.str.step → s.str.halt = false → s.pwr.sleep ≠ .asleep → ∀ v, fld v 31 24 = 0xA5 → bit v 0 = true →
    Gives (.fltClrWrite .lantern v) s fun t => t.flt = { s.flt with ents := [] }
      ∧ (∀ c, c < 32 → t.reg (Reg.FLT_CNT + 4 * c) = 0) ∧ Only [.flt] ((List.range 32).map fun c => Reg.FLT_CNT + 4 * c) s t)

/-! ### Resets, power domains, pins and clocks -/

/-- What brings a block reset, with its cause (R54, R82, R462, R53); and POR_N (R54, R63). -/
def Obligations.Resets : Prop := ∀ (s : State), s.pwr.por = false →
  (Gives .clapReset s fun t => Restarts s t 1)
  ∧ (s.str.failed = true → Gives .stepFailureReset s fun t => Restarts s t 3)
  ∧ (s.dbg.wdLeft = none → s.flt.wdtFrom + s.flt.wdtLimit ≤ s.flt.ft → Gives .watchdogExpiry s fun t => Restarts s t 2)
  ∧ (4 ≤ s.str.step → s.str.halt = false → s.pwr.sleep ≠ .asleep → s.core.halt ≠ .stranded → s.core.halt ≠ .lockup →
    ∀ v, fld v 31 24 = 0xA5 → bit v 16 = true → Gives (.pwrRstBlock .lantern v) s fun t => Restarts s t 3)
  ∧ (s.pwr.sleep = .asleep →
    (∀ k, 12 ≤ k → k ≤ 15 → bit (s.reg Reg.PWR_WAKE) (k - 12) = true → Gives (.sleepWake (.evtIn k)) s fun t => Restarts s t 5)
    ∧ (bit (s.reg Reg.PWR_WAKE) 4 = true → Gives (.sleepWake .clap) s fun t => Restarts s t 5)
    ∧ (bit (s.reg Reg.PWR_WAKE) 5 = true → s.pwr.sleepAt + (s.reg Reg.PWR_ALARM).toNat * 1000000 / 32768 ≤ s.clk.us →
      Gives .keeperAlarm s fun t => Restarts s t 5))
  ∧ (Gives .porNAssert s fun t => t = { State.reset with pending := s.pending, free := s.free })
  ∧ ∀ id role, Gives (.porNRelease id role) { s with pwr := { s.pwr with por := true } } fun t =>
    t.pwr.por = false ∧ t.pwr.chainId = id ∧ t.pwr.pairRole = role ∧ t.str.step = 1 ∧ t.str.startCount = 1
    ∧ t.str.cold = true ∧ t.reg Reg.PWR_STRAP = BitVec.ofNat 32 (id.toNat + role.toNat * 8) ∧ t.clk.us = 0 ∧ t.scn.mode = .none
    ∧ t.mem = s.mem

/-- How a power domain goes through its states (R46 to R50, R55): requests and the reset of a domain, the acknowledges of
its rail, its report of ready with cleared banks and its registers at their Reset values (R8), those that Lantern writes anew
(R338, R346), the slots after a restart (R421), its record in the log, and its entry to DOZE (R50, R445). -/
def Obligations.PowerDomains : Prop := ∀ (s : State) (n : Nat) (d : Dom), 1 ≤ n → n ≤ 11 → s.dom n = d → s.hst.jobs = [] →
  s.bcn.role = 0 → s.bcn.resync = .none → s.pwr.por = false →
  let others (t : State) := ∀ m, m ≠ n → t.dom m = s.dom m
  let lantern := 4 ≤ s.str.step ∧ s.str.halt = false ∧ s.pwr.sleep ≠ .asleep ∧ s.core.halt ≠ .stranded ∧ s.core.halt ≠ .lockup
  let record (t : State) (a b e : Nat) := ∃ by_, (by_ = 0x11 ∨ by_ = 0x111) ∧ t.log.queue = s.log.queue
    ++ [⟨s.clk.us % 2 ^ 48, s.str.startCount, 0x0005, by_, [BitVec.ofNat 8 n, BitVec.ofNat 8 a, BitVec.ofNat 8 b, BitVec.ofNat 8 e]⟩]
  (d.st = .waking → Gives (.pwrAckRise n) s fun t =>
    t.dom n = { d with st := .reset true, ack := true } ∧ others t ∧ Only [.pwr] [] s t)
  ∧ (∀ c, d.st = .reset c → d.dozeAfter = false → n ≠ 7 → n ≠ 9 → (n = 8 → 3 < s.str.step) → s.log.queue.length < 17 →
    Gives (.domainReady n) s fun t => t.dom n = { d with st := .run } ∧ others t ∧ bit (t.reg Reg.HST_IRQ) 3 = true
      ∧ (c = false → t.mem = s.mem ∧ t.log = s.log ∧ t.epoch n = s.epoch n)
      ∧ (c = true → t.epoch n = (s.epoch n + 1) % 256 ∧ record t 2 0 ((s.epoch n + 1) % 256)
        ∧ ∀ a, t.byte a = if (banksOf n).any (fun r => decide (r.1 ≤ a) && decide (a ≤ r.2)) then 0 else s.byte a)
      ∧ Only [.pwr, .mem, .log, .banks, .latches] [epochReg n, Reg.HST_IRQ, Reg.CAR_SRCOVR] (s.resetRegs n) t)
  ∧ (∀ c, d.st = .reset c → d.dozeAfter = false → (n = 7 ∨ n = 9) → s.flk.stns = [] → s.flk.hfs = [] → s.banks.ecc = [] →
    Map.wf resetValue s.flk.copy = true → s.log.queue.length < 17 → Gives (.domainReady n) s fun t =>
      t.dom n = { d with st := .run } ∧ others t ∧ t.flk = s.flk
      ∧ (∀ a, regBase ≤ a → pageDomain (pageOf a) = n → heldInPd0 a = false →
        t.reg a = if 7 ≤ pageOf a ∧ pageOf a ≤ 9 then Map.get resetValue s.flk.copy a else resetValue a)
      ∧ (n = 7 → t.gov.tab = s.flk.tab ∧ t.scn.staged = []
        ∧ (c = true → t.scn.breaks = s.scn.breaks + 1 ∧ t.scn.forced = false)))
  ∧ (∀ c, n = 8 → d.st = .reset c → s.str.step ≤ 3 → Gives (.domainReady 8) s fun t =>
    (t.dom 8).st = (if d.dozeAfter then .dozing else .run) ∧ others t
    ∧ ∀ m, m < 16 → t.slot m = if (s.slot m).st = 1 ∨ (s.slot m).st = 2
      then { st := 3, tag := (s.slot m).tag, code := 7, restart := true }
      else if (s.slot m).st = 3 ∧ (s.slot m).consumed = false then { s.slot m with restart := true } else s.slot m)
  ∧ (∀ f, d.st = .falling f → d.wake = false → s.log.queue.length < 17 → Gives (.pwrAckFall n) s fun t =>
    t.dom n = { d with st := .off, ack := false } ∧ others t ∧ record t f 2 (s.epoch n)
    ∧ bit (t.reg Reg.HST_IRQ) 3 = true ∧ Only [.pwr, .log] [Reg.HST_IRQ] s t)
  ∧ (d.st = .run → Gives (.pwrAckUnrequestedFall n) s fun t =>
    t.dom n = { d with ack := false } ∧ others t ∧ Only [.pwr] [] s t)
  ∧ (d.ackAwaited = true → d.late = false → d.since + s.f Reg.PWR_TACK 7 0 ≤ s.clk.us → s.str.step ≠ 2 → s.silentClass 6 = true →
    Gives (.ackTimeout n) s fun t => t.dom n = { d with late := true } ∧ others t ∧ bit (t.reg Reg.PWR_FAULT) n = true
      ∧ Counted s t 6 ∧ Only [.pwr, .flt, .log] [Reg.PWR_FAULT, Reg.FLT_CNT + 4 * 6, Reg.LOG_LOST] s t)
  ∧ (d.st = .dozing → n ≠ 11 → (s.required n = false ∨ s.scn.mode = .stop) → (n = 7 → s.flk.stns = []) → s.core.held = none →
    Gives (.dozeEntry n) s fun t =>
    t.dom n = { d with st := .doze } ∧ others t ∧ bit (t.reg Reg.HST_IRQ) 3 = true
    ∧ Only [.pwr, .latches] [Reg.HST_IRQ, Reg.CAR_SRCOVR] s t)
  ∧ (d.st = .dozing → n = 11 → s.core.halt = .none → s.core.held = none → Gives (.dozeEntry 11) s fun t =>
    t.dom 11 = { d with st := .doze } ∧ others t ∧ t.dbg = { grant := s.dbg.grant }
    ∧ Only [.pwr, .dbg] [Reg.HST_IRQ] (s.resetRegs 11) t)
  ∧ (lantern → s.reg Reg.PWR_CTRL = 0 → (∀ m, 1 ≤ m → m ≤ 11 → s.dom m = { st := .run, ack := true }) →
    (s.scn.mode = .stop → (n = 6 ∨ n = 7 ∨ n = 9 ∨ n = 10) →
      Gives (.pwrCtrlRequest .lantern (BitVec.ofNat 32 (4 ^ n))) s fun t => (t.dom n).st = .dozing ∧ others t
        ∧ t.reg Reg.PWR_CTRL = BitVec.ofNat 32 (4 ^ n) ∧ Only [.pwr] [Reg.PWR_CTRL] s t)
    ∧ (n = 3 → Gives (.pwrCtrlRequest .lantern (BitVec.ofNat 32 (4 ^ n))) s fun t => (t.dom n).st = .run ∧ others t
        ∧ bit (t.reg Reg.PWR_FAULT) 12 = true ∧ Only [.pwr] [Reg.PWR_FAULT] s t)
    ∧ (s.scn.mode = .stop → bit s.clk.lost 7 = false → s.pwr.sleep = .awake →
      Gives (.pwrCtrlSleep .lantern 0x1000000) s fun t => t.pwr.sleep = .entering ∧ t.pwr.sleepAt = s.clk.us
        ∧ t.dom n = s.dom n ∧ others t ∧ Only [.pwr] [] s t)
    ∧ (n = 10 → s.required 10 = false → Gives (.pwrRstDomain .lantern 0xA5000400) s fun t =>
      t.dom n = { d with st := .reset false } ∧ others t ∧ t.epoch n = (s.epoch n + 1) % 256 ∧ t.chn = {} ∧ t.bcn = {}
        ∧ (∀ a, a ∈ (List.range 0x2000).map (0x78B000 + ·) → heldInPd0 a = false → t.reg a = resetValue a)
        ∧ Only [.pwr, .chn, .bcn] (epochReg n :: Reg.HST_IRQ :: (List.range 0x2000).map (0x78B000 + ·)) s t))

/-- Block sleep, the pins PFAIL_N and EVT_IN, and the watched clocks (R35, R40, R44, R52, R53, R456). -/
def Obligations.PinsAndClocks : Prop := ∀ (s : State), s.calm = true →
  (s.pwr.sleep = .entering → (∀ m, 1 ≤ m → m ≤ 11 → (s.dom m).st = .run) → s.flk.stns = [] →
    s.hst.jobs = [] → s.log.queue.length < 17 →
    Gives .sleepPowerDown { s with scn := { s.scn with mode := .stop, phase := .idle } } fun t =>
      let now := if s.sleepReplyWaits then max s.clk.us (s.pwr.sleepAt + 10000) else s.clk.us
      t.scn.mode = .none ∧ t.pwr.sleep = .asleep ∧ t.pwr.sleepAt = now ∧ t.clk.us = now ∧ t.mem = s.mem
      ∧ t.str.gen = s.str.gen ∧ t.pending = s.pending
      ∧ (∀ m, 1 ≤ m → m ≤ 11 → (t.dom m).st = if s.activePd m then .doze else .falling 0))
  ∧ (bit (s.reg Reg.LOG_CTRL) 1 = false → Gives .pfailNFall s fun t =>
    t.pwr = { s.pwr with pfail := true } ∧ Only [.pwr] [] s t)
  ∧ (bit (s.reg Reg.LOG_CTRL) 1 = true → bit (s.reg Reg.LOG_STAT) 1 = false → s.log.queue = [] → s.log.side.length < 8 →
    s.inRun 8 = false → Gives .pfailNFall s fun t => t.pwr = { s.pwr with pfail := true }
      ∧ bit (t.reg Reg.LOG_STAT) 1 = true ∧ t.reg Reg.LOG_LGSTAT = 0x100 ∧ bit (t.reg Reg.HST_IRQ) 2 = true
      ∧ t.log.side = s.log.side ++ [⟨s.clk.us % 2 ^ 48, s.str.startCount, 0x8062, 0x10F,
        toBytes (s.reg Reg.LOG_SEQ).toNat 4 ++ [BitVec.ofNat 8 s.log.side.length]⟩]
      ∧ Only [.pwr, .log] [Reg.LOG_STAT, Reg.LOG_LGSTAT, Reg.HST_IRQ] s t)
  ∧ (s.pwr.pfail = true → bit (s.reg Reg.LOG_STAT) 1 = false → (∀ m, m ≤ 11 → (s.dom m).wake = false) →
    Gives .pfailNRecovery s fun t => t.pwr = { s.pwr with pfail := false } ∧ Only [.pwr] [] s t)
  ∧ (∀ k, k < 16 → bit s.car.latches (64 + k) = false →
    Gives (.evtInEdge k) s fun t => Latched s t (64 + k) ∧ Only [.latches] [] s t)
  ∧ (∀ k, 3 ≤ k → k ≤ 5 → bit (s.reg Reg.CLK_MON) k = true → bit s.clk.lost k = false → s.log.queue.length < 17 →
    s.silentClass 7 = true → Gives (.clockLoss k) s fun t => t.clk = { s.clk with lost := setBit s.clk.lost k true }
      ∧ bit (t.reg Reg.CLK_LOSS) k = true ∧ bit (t.reg Reg.HST_IRQ) 3 = true ∧ Counted s t 7
      ∧ (∃ l, t.log.queue = s.log.queue ++ ⟨s.clk.us % 2 ^ 48, s.str.startCount, 0x8006, 0x112,
        [BitVec.ofNat 8 k, 0, 0, 0] ++ toBytes (s.reg (Reg.CLK_MEAS + 4 * k)).toNat 4⟩ :: l)
      ∧ Only [.clk, .log, .flt] [Reg.CLK_LOSS, Reg.HST_IRQ, Reg.FLT_CNT + 4 * 7, Reg.LOG_LOST] s t)
  ∧ (∀ counts, s.pwr.flStopped = false → (∀ k, k < 7 → inRange k (counts.getD k 0) = true) →
    Gives (.measurementWindow counts) s fun t => (∀ k, k < 8 → bit t.clk.lost k = false)
      ∧ (∀ k, k < 7 → fld (t.reg (Reg.CLK_MEAS + 4 * k)) 23 0 = counts.getD k 0 % 2 ^ 24
        ∧ bit (t.reg (Reg.CLK_MEAS + 4 * k)) 31 = true)
      ∧ t.clk.us = s.clk.us ∧ t.clk.timeHi = s.clk.timeHi
      ∧ Only [.clk] ((List.range 7).map fun k => Reg.CLK_MEAS + 4 * k) s t)

/-! ### The start sequence -/

/-- S1 to S3 (R64 to R66): the clock check passes, or counts a failure for each 100 ms that a required clock stays away, the
clear ends with every domain in RUN, and the base load fills both stores, the image and the firmware from the boot ROM, and Lantern
starts at its vector 0 (R222), or halts the start. STR_CLEAR forgets failures (R86). -/
def Obligations.StartToTheRing : Prop := ∀ (s : State), s.pwr.por = false → s.scn.mode = .none → s.bcn.role = 0 →
  s.bcn.resync = .none →
  let time := min (s.clk.us - s.str.stepFrom) 0xFFFFFF
  let passes (t : State) (n : Nat) := t.stepRec n = ⟨1, 0, 0, time⟩ ∧ ∀ k, k ≠ n → t.stepRec k = s.stepRec k
  let fails (t : State) (n reason : Nat) := t.stepRec n = ⟨2, satInc (s.stepRec n).count 3, reason, time⟩
    ∧ (∀ k, k ≠ n → t.stepRec k = s.stepRec k) ∧ Counted s t 17
    ∧ ∃ l, t.log.queue = s.log.queue ++ ⟨s.clk.us % 2 ^ 48, s.str.startCount, 0x8002, 0x113,
      [BitVec.ofNat 8 n, BitVec.ofNat 8 reason, BitVec.ofNat 8 (satInc (s.stepRec n).count 3)]⟩ :: l
  let quiet := s.silentClass 17 = true ∧ s.log.queue.length < 17
  let logs : List Nat := [Reg.FLT_CNT + 4 * 17, Reg.LOG_LOST]
  (∀ counts, s.str.step = 1 → (∀ k, k < 7 → inRange k (counts.getD k 0) = true) → s.pwr.flStopped = false →
    (∀ n, 1 ≤ n → n ≤ 11 → (s.dom n).st = .held) → Gives (.clockCheckPass counts) s fun t =>
      t.str.step = 2 ∧ t.str.stepFrom = s.clk.us ∧ passes t 1 ∧ t.str.fcore = counts.getD 0 0 % 2 ^ 24
      ∧ t.str.cleared = s.str.cleared ||| 3 ∧ t.clk.us = s.clk.us ∧ t.clk.divider = counts.getD 6 0 % 2 ^ 24
      ∧ (∀ k, k < 8 → k ≠ 1 → bit t.clk.lost k = false)
      ∧ (∀ n, 1 ≤ n → n ≤ 11 → (t.dom n).st = .falling 3 ∧ (t.dom n).wake = true ∧ t.epoch n = (s.epoch n + 1) % 256)
      ∧ t.flt = { s.flt with wdtFrom := s.flt.ft, wdtWarned := false, wdtLimit := 1000 * s.f Reg.FLT_WDT 15 0 }
      ∧ fld (t.reg Reg.CLK_MON) 5 2 = 15
      ∧ Only [.str, .pwr, .clk, .flt] (Reg.CLK_MON :: epochReg 1 :: epochReg 5 :: epochReg 9
        :: (List.range 7).map fun k => Reg.CLK_MEAS + 4 * k) s t)
  ∧ (s.str.step = 1 → quiet → s.str.waitFrom + 100000 ≤ s.clk.us →
    (bit s.clk.lost 0 || bit s.clk.lost 6 || bit s.clk.lost 7) = true → (bit s.clk.lost 6 && bit s.clk.lost 7) = false →
    Gives .clockCheckFailure s fun t => fails t 1 2 ∧ t.str.step = 1 ∧ t.str.waitFrom = s.clk.us ∧ Only [.str, .log, .flt] logs s t)
  ∧ (s.str.step = 2 → s.str.halt = false → (∀ n, 1 ≤ n → n ≤ 11 → (s.dom n).st = .run) → Gives .bankClear s fun t =>
    t.str.step = 3 ∧ t.str.stepFrom = s.clk.us ∧ passes t 2 ∧ Only [.str] [] s t)
  ∧ (s.str.step = 3 → s.str.halt = false → quiet → Gives (.baseControlStoreLoad false) s fun t =>
    t.str.halt = true ∧ t.str.step = 3 ∧ fails t 3 4 ∧ Only [.str, .log, .flt] logs s t)
  ∧ (s.str.step = 3 → s.str.halt = false → s.str.cold = true → s.str.s4Ended = false → fld s.str.cfg 31 16 ≠ 0 →
    Gives (.baseControlStoreLoad true) s fun t => t.str.step = 4 ∧ passes t 3 ∧ t.hst = { s.hst with isOpen := true }
      ∧ (∀ i, i < 4096 → t.micro i = romMicro i ∧ t.mread (0x700000 + 4 * i) 4 = romMicro i)
      ∧ (∀ i, i < 1024 → t.nano i = romNano i ∧ t.mread (0x704000 + 16 * i) 16 = romNano i) ∧ t.mcs.bad = []
      ∧ (∀ j, j < 0x7000 → t.byte (0x708000 + j) = Config.romByte (0x9000 + j))
      ∧ (∀ a, 0x70F000 ≤ a → a < 0x730000 → t.byte a = 0)
      ∧ (∀ a, a < 0x700000 ∨ 0x730000 ≤ a → t.byte a = s.byte a)
      ∧ t.core.lantern = { s.core.lantern with pc := 0x708000 } ∧ Only [.str, .mcs, .mem, .hst, .banks, .lantern] [] s t)
  ∧ (4 ≤ s.str.step → s.str.halt = false → s.pwr.sleep ≠ .asleep → s.core.halt = .none → ∀ v, fld v 31 24 = 0xA5 →
    Gives (.strClearWrite .lantern v) s fun t =>
      (∀ n, n < 10 → t.stepRec n = if bit v n then { s.stepRec n with count := 0 } else s.stepRec n)
      ∧ t.str.mapout = (if bit v 10 then 0 else s.str.mapout) ∧ Only [.str] [] s t)

/-- S4 to S9 (R67 to R78): the time limit, the judgement and the application of patches, the bank test, the check of the
active generation, and the start mode. -/
def Obligations.StartFromTheRing : Prop := ∀ (s : State), s.pwr.por = false → s.scn.mode = .none → s.bcn.role = 0 →
  s.bcn.resync = .none → s.str.failed = false → s.silentClass 17 = true → s.log.queue.length < 16 → s.banks.ecc = [] →
  let time := min (s.clk.us - s.str.stepFrom) 0xFFFFFF
  let pass (t : State) (n : Nat) := t.stepRec n = ⟨1, 0, 0, time⟩
  let fail (t : State) (n reason : Nat) := t.str.failed = true
    ∧ t.stepRec n = ⟨2, satInc (s.stepRec n).count 3, reason, time⟩ ∧ Counted s t 17
  let skip (t : State) (n : Nat) := t.stepRec n = { s.stepRec n with outcome := 3 }
  let b := (s.blobBytes 0 (blobLen (s.blobBytes 0 112).1 + 176)).1
  (s.str.step = 4 → s.str.s4Ended = false → s.str.decided = true → s.str.blobs = [] → bit s.str.cfg 3 = false →
    s.str.stepFrom + 1000 * fld s.str.cfg 31 16 ≤ s.clk.us → (fld s.str.cfg 31 16 = 0 → s.str.s4Wait = 0) →
    Gives .patchFetchTimeout s fun t => t.str.step = 7 ∧ t.str.patchless = true ∧ t.str.patches = 0 ∧ pass t 4 ∧ skip t 5 ∧ skip t 6
      ∧ Only [.str] ((List.range 8).map fun i => Reg.MCS_DIGEST + 4 * i) s t)
  ∧ (s.str.step = 5 → ∀ n, n < 16 → s.str.blobs = [⟨n, b.length, none⟩] → s.hst.jobs = [⟨n, 0x10, []⟩] →
    (blobHeaderOk b = true → blobEnc b = false → blobOem b = false →
      s.keyCheck (blobSlot b) ((b.drop 48).take 64) (b.drop (b.length - 64)) (b.take (b.length - 64)) = 0 →
      ∀ l, patchRecs false (blobLen b / 8 + 1) (blobPayload b) = .ok l → l.all recFormat = true →
      Gives (.authenticateAndDecrypt 0) s fun t => t.str.step = 6 ∧ pass t 5 ∧ t.str.patchRes = 0 :: s.str.patchRes.drop 1
        ∧ (t.slot n).st = 3 ∧ (t.slot n).code = 0 ∧ t.hst.jobs = []
        ∧ Only [.str, .hst] [Reg.HST_IRQ, Reg.HST_CMDCNT] s t)
    ∧ (blobHeaderOk b = false → Gives (.authenticateAndDecrypt 0) s fun t => fail t 5 9 ∧ t.str.step = 5
        ∧ t.str.patchRes = 9 :: s.str.patchRes.drop 1 ∧ (t.slot n).st = 3 ∧ (t.slot n).code = 2 ∧ t.hst.jobs = []
        ∧ Only [.str, .hst, .log, .flt] [Reg.HST_IRQ, Reg.HST_CMDCNT, Reg.FLT_CNT + 4 * 17, Reg.LOG_LOST] s t))
  ∧ (s.str.step = 6 → ∀ n i v, s.str.blobs = [⟨n, b.length, some 0⟩] → i < 4096 →
    patchRecs (blobOem b) (blobLen b / 8 + 1) (blobPayload b) = .ok [⟨1, i, 1, toBytes v 4⟩] → v < 2 ^ 28 →
    Gives (.applyPatch true) s fun t => t.str.step = 7 ∧ pass t 6 ∧ t.str.patches = 1 ∧ t.micro i = v ∧ t.badAt false i = 0
      ∧ (∀ j, j ≠ i → t.micro j = s.micro j) ∧ (∀ j, t.nano j = s.nano j)
      ∧ Only [.str, .mcs, .mem, .banks] ((List.range 8).map fun i => Reg.MCS_DIGEST + 4 * i) s t)
  ∧ (s.str.step = 7 → s.str.gen ≠ 0 → s.str.alts / 2 ^ 8 % 2 = 0 → Gives (.bankBist 0 false) s fun t =>
    t.str.step = 8 ∧ pass t 7 ∧ t.reg Reg.MEM_BIST = 0x1000 ∧ t.reg Reg.MEM_MAPOUT = BitVec.ofNat 32 s.str.mapout
    ∧ (∀ a, t.byte a = if s.marchHalves.any (fun h => decide ((halfRange h).1 ≤ a) && decide (a ≤ (halfRange h).2)) then 0
      else s.byte a)
    ∧ Only [.str, .mem, .banks] [Reg.MEM_BIST, Reg.MEM_MAPOUT] s t)
  ∧ (s.str.step = 8 → s.str.gen = 1 → (s.dom 4).st = .run → s.str.mapout = 0 → s.str.genLen ≤ 0x200000 →
    (sha256 (s.genBytes 1 s.str.genLen) ≠ s.str.genDigest → Gives .codeBankVerification s fun t => fail t 8 13
      ∧ Only [.str, .log, .flt] [Reg.FLT_CNT + 4 * 17, Reg.LOG_LOST] s t)
    ∧ (sha256 (s.genBytes 1 s.str.genLen) = s.str.genDigest → fld s.str.cfg 1 0 = 0 → s.reg Reg.BCN_CFG = 0 → s.flk.stns = [] →
      s.scn.staged = [] → s.hst.jobs = [] → s.traceOn = false → Gives .codeBankVerification s fun t => t.str.step = 15 ∧ pass t 8 ∧ t.str.entered = 0
        ∧ t.scn.mode = .stop ∧ t.car.latches = 0 ∧ t.reg Reg.OLC_GENID = BitVec.ofNat 32 (s.mread 8 4)
        ∧ t.log.queue.getLast? = some ⟨s.clk.us % 2 ^ 48, s.str.startCount, 0x0001, 0x13,
          [0, BitVec.ofNat 8 s.str.cause, BitVec.ofNat 8 s.str.patches, BitVec.ofNat 8 s.str.flags]⟩
        ∧ Only [.str, .scn, .log, .latches, .flk, .bcn] [Reg.OLC_GENID, Reg.HST_ATTN, Reg.HST_IRQ] s t))

/-! ### The host port and the registers -/

/-- The host port (R22, R28 to R31): reads and writes of XB by byte enables, a write to a busy slot (R405) and one that meets
the core's (R260, R261, a free value of log entry 81), a register written whole or refused, an offset
that is not listed, the reply of a slot consumed by its read (R408), and the ring's doorbell (R407). -/
def Obligations.HostPort : Prop := ∀ (s : State), s.calm = true → s.banks.ecc = [] → (s.dom 8).st = .run → (s.dom 11).st = .run →
  (s.dom 2).st = .run → s.reg Reg.MEM_MAPOUT = 0 →
  let replies (t : State) (resp : Nat) (d : Word) := t.hst = { s.hst with resp := resp, rdata := d }
  let port : List Part := [.hst, .xbWrites]
  (∀ i, i < 0x10000 → Gives (.hostRead i) s fun t => replies t 0 (s.w32 (0x6C0000 + 4 * i)) ∧ Only port [] s t)
  ∧ (∀ i v be, i < 0x10000 → be < 16 →
    let busy := be ≠ 0 ∧ ((s.slot (i / 64)).st = 1 ∨ (s.slot (i / 64)).st = 2) ∧ i < 0x400
    let written (t : State) := t.hst = { s.hst with resp := 0, rdata := 0, slots := t.hst.slots }
      ∧ (∀ m, m < 16 → t.slot m = if m = i / 64 ∧ busy then { s.slot m with written := true } else s.slot m)
      ∧ (∀ k, k < 32 → (bit (t.reg Reg.HST_ERR) k = true ↔ bit (s.reg Reg.HST_ERR) k = true ∨ k = 1 ∧ busy))
      ∧ (∀ b, t.byte b = if 0x6C0000 + 4 * i ≤ b ∧ b < 0x6C0000 + 4 * i + 4 ∧ be.testBit (b % 4) then byteOf v.toNat (b % 4)
        else s.byte b) ∧ Only (.mem :: port) [Reg.HST_ERR] s t
    (s.coreWroteWord (0x6C0000 + 4 * i) = false → Gives (.hostWrite i v be) s written)
    ∧ (s.coreWroteWord (0x6C0000 + 4 * i) = true → be ≠ 0 → Gives (.hostWrite i v be) s fun t =>
      written t ∨ replies t 3 0 ∧ t.reg Reg.MEM_XCOLL = BitVec.ofNat 32 (satInc (s.reg Reg.MEM_XCOLL).toNat 0xFFFFFFFF)
        ∧ bit t.car.latches 107 = true ∧ Only (.latches :: port) [Reg.MEM_XCOLL, Reg.CAR_SRCOVR + 12] s t))
  ∧ (∀ i v be, 0x10400 ≤ i → i < 0x20000 → be < 16 →
    Gives (.hostRead i) s (fun t => replies t 1 0 ∧ Only port [] s t)
    ∧ Gives (.hostWrite i v be) s fun t => replies t 1 0 ∧ Only port [] s t)
  ∧ (∀ v be, 0 < be → be < 15 → Gives (.hostWrite 0x10000 v be) s fun t => replies t 1 0 ∧ Only port [] s t)
  ∧ (∀ n, n < 16 → (s.slot n).st = 3 → Gives (.replyStatusRead .host n) s fun t =>
    t.slot n = { s.slot n with consumed := true } ∧ (∀ m, m ≠ n → t.slot m = s.slot m)
    ∧ t.hst = { s.hst with resp := 0, rdata := s.replyStatus n, slots := t.hst.slots } ∧ Only [.hst] [] s t)
  ∧ (∀ n, n < 16 → (s.slot n).st = 0 ∨ ((s.slot n).st = 3 ∧ (s.slot n).consumed = true) → bit s.car.latches 80 = false →
    Gives (.doorbellSubmit .host (BitVec.ofNat 32 (2 ^ n))) s fun t =>
      t.slot n = { st := 1, tag := (s.byte (slotAddr n + 1)).toNat } ∧ (∀ m, m ≠ n → t.slot m = s.slot m) ∧ Latched s t 80
      ∧ t.hst = { s.hst with resp := 0, rdata := 0, slots := t.hst.slots } ∧ Only [.hst, .latches] [] s t)
  ∧ (∀ k, k < 8 → bit s.car.latches (80 + k) = false → Gives (.doorbellRing .host (BitVec.ofNat 32 (2 ^ (16 + k)))) s fun t =>
    Latched s t (80 + k) ∧ replies t 0 0 ∧ Only [.hst, .latches] [] s t)
  ∧ (∀ v, s.hst.expertUntil = none → Gives (.registerWrite .host Reg.DBG_CHIMEEN v) s (fun t => replies t 0 0
      ∧ t.reg Reg.DBG_CHIMEEN = v ∧ Only [.hst] [Reg.DBG_CHIMEEN] s t)
    ∧ (bit v 3 = true → (∀ i, i < 3 → bit v i = bit (s.reg Reg.PIP_CTRL) i) → (s.dom 1).st = .run →
      Gives (.pipIcinv .host v) s fun t => replies t 1 0 ∧ Only [.hst] [] s t))

/-- What writing a register sets off (R61, R180, R187, R191, R195, R270, R329, R337): Lantern's writes, which need no
expert access. -/
def Obligations.RegisterEffects : Prop := ∀ (s : State), s.calm = true → 4 ≤ s.str.step → s.str.halt = false →
  s.pwr.sleep ≠ .asleep → (∀ d, d < 12 → s.inRun d = true) →
  (∀ n v, n < 64 → n ≠ 0 → s.car.running ≠ some n → fld v 31 24 = 0xA5 → bit v 8 = false → fld v 5 0 = n →
    s.core.fpown ≠ some n → (bit (s.cdCtrl n) 4 && s.initFails n) = false →
    (∀ k, k < 8 → s.eccAt (sdtBase + 8 * s.cdIdx n k) ≠ .double) →
    Gives (.carCinitWrite .lantern v) s fun t =>
      let c := t.ctx n
      c.pc.toNat = 2 * fld (s.reg (cdReg n 1)) 21 1 ∧ c.entry = c.pc ∧ c.ctrl = s.cdCtrl n ∧ c.prio = fld (s.cdCtrl n) 3 0
      ∧ fld c.sw 31 24 = n ∧ bit c.sw 9 = bit (s.cdCtrl n) 5 ∧ c.oc = [] ∧ c.rc = [] ∧ c.acc = 0 ∧ c.prog = 0 ∧ c.pend = false
      ∧ (∀ k, k < 8 → c.seg k = descCopy (s.cdIdx n k) (s.sdt (s.cdIdx n k)))
      ∧ c.osp.toNat = dLimit (c.seg 2) + 1 ∧ c.rsp.toNat = dLimit (c.seg 3) + 1
      ∧ c.st = (if bit (s.cdCtrl n) 4 then .waiting else .idle)
      ∧ (∀ m, m ≠ n → t.ctx m = s.ctx m) ∧ Only [.contexts] [] s t)
  ∧ (∀ n v, n < 64 → Gives (.carPrioWrite .lantern n v) s fun t => t.ctx n = { s.ctx n with prio := fld v 3 0 }
    ∧ (∀ m, m ≠ n → t.ctx m = s.ctx m) ∧ Only [.contexts] [] s t)
  ∧ (∀ n v, n < 16 → Gives (.timerWrite .lantern n v) s fun t =>
    fld (t.reg (Reg.CAR_TMR + 4 * n)) 23 0 = fld v 23 0 ∧ bit (t.reg (Reg.CAR_TMR + 4 * n)) 31 = bit v 31
    ∧ (∀ k, Map.get (fun _ => none) t.car.due k = if k ≠ n then Map.get (fun _ => none) s.car.due k
      else if bit v 31 && decide (fld v 23 0 ≠ 0) then some (s.clk.us + fld v 23 0) else none)
    ∧ Only [.timers] [Reg.CAR_TMR + 4 * n] s t)
  ∧ (∀ v, bit v 3 = true → (∀ i, i < 3 → bit v i = bit (s.reg Reg.SCN_CTRL) i) → Gives (.scnBreakWrite .lantern v) s fun t =>
    t.scn.breaks = s.scn.breaks + 1 ∧ t.scn.mode = s.scn.mode ∧ t.scn.cyc = s.scn.cyc ∧ Only [.scn] [] s t)
  ∧ (∀ v, (∀ i, i < 3 → bit v i = bit (s.reg Reg.PIP_CTRL) i) →
    (bit v 3 = true → bit v 4 = false → bit v 5 = false → Gives (.pipIcinv .lantern v) s fun t =>
      t.core = { s.core with icache := [], lineBuf := none, badPar := t.core.badPar }
      ∧ (∀ e, e ∈ t.core.badPar → e ∈ s.core.badPar ∧ e.1 = .data) ∧ Only [.caches] [] s t)
    ∧ (bit v 3 = false → bit v 4 = true → bit v 5 = false → Gives (.pipDcinv .lantern v) s fun t =>
      t.core = { s.core with dcache := [], badPar := t.core.badPar }
      ∧ (∀ e, e ∈ t.core.badPar → e ∈ s.core.badPar ∧ e.1 ≠ .data) ∧ Only [.caches] [] s t)
    ∧ (bit v 3 = false → bit v 4 = false → bit v 5 = true → Gives (.pipBpinv .lantern v) s fun t =>
      t.core = { s.core with bp := [], itt := [], gh := 0 } ∧ Only [.predict] [] s t))
  ∧ (∀ m v, m < 16 → Gives (.beaCmpWrite .lantern m v) s fun t =>
    t.reg (Reg.BEA_CMP + 0x20 * m) = v ∧ Only [] [Reg.BEA_CMP + 0x20 * m] s t)
  ∧ (∀ v, let i := s.f Reg.GOV_TADDR 11 0
    Gives (.govTdataWrite .lantern v) s fun t =>
      (∀ j, Map.get (fun _ => 0) t.gov.tab j = if j = i then v &&& 0x07FFFFFF else Map.get (fun _ => 0) s.gov.tab j)
      ∧ (∀ j, Map.get (fun _ => 0) t.flk.tab j = if j = i then v &&& 0x07FFFFFF else Map.get (fun _ => 0) s.flk.tab j)
      ∧ t.gov = { s.gov with tab := t.gov.tab } ∧ t.flk = { s.flk with tab := t.flk.tab } ∧ Only [.gov, .flk] [] s t)
  ∧ (Gives (.clkTimeloRead .lantern) s fun t =>
    t.clk = { s.clk with timeHi := s.clk.us / 2 ^ 32 % 65536 } ∧ Only [.clk] [] s t)
  ∧ (∀ v, Gives (.registerWrite .lantern Reg.EXC_MCINFO v) s (fun t => Only [] [] s t)
    ∧ Gives (.registerWrite .lantern Reg.EXC_MCPEND v) s fun t => Only [] [Reg.EXC_MCPEND] s t
      ∧ ∀ j, j < 7 → bit (t.reg Reg.EXC_MCPEND) j = (bit (s.reg Reg.EXC_MCPEND) j && !bit v j))

/-! ### Host commands -/

/-- Lantern takes the slot at NEXT (R410): a packet that passes the header checks of R411 is to be interpreted, an unknown
opcode is answered at once, and so is a slot written after its SUBMIT (R410). -/
def Obligations.SlotInterpretation : Prop := ∀ (s : State) (n : Nat), s.calm = true → s.bare = true → s.hst.isOpen = true →
  s.core.sb = [] → s.hst.interp = none → (s.dom 8).st = .run → 4 ≤ s.str.step → s.str.halt = false → s.pwr.sleep ≠ .asleep →
  s.car.running = none → n < 16 → s.hst.next = n → (s.slot n).st = 1 →
  let ws := (List.range 64).map fun i => s.w32 (slotAddr n + 4 * i)
  let len := fld (ws.getD 0 0) 31 16
  let op := fld (ws.getD 0 0) 7 0
  ((s.slot n).written = false → s.str.step = 15 → ((op = 0x02 ∧ len = 4) ∨ (op = 0x03 ∧ len = 8) ∨ (op = 0x20 ∧ len = 12)) →
    Gives .slotInterpretation s fun t => t.hst = { s.hst with interp := some (n, ws), next := (n + 1) % 16, slots := t.hst.slots }
      ∧ t.slot n = { s.slot n with st := 2 } ∧ (∀ m, m ≠ n → t.slot m = s.slot m) ∧ Only [.hst, .lantern] [] s t)
  ∧ ((s.slot n).written = false → op = 0x7F → s.str.step = 15 → Answers .slotInterpretation s n 8 [] { s.hst with next := (n + 1) % 16 } [] [] [] fun _ => True)
  ∧ ((s.slot n).written = false → op = 0x03 → len = 8 → s.str.step ≠ 15 → s.str.step ≠ 4 →
    Answers .slotInterpretation s n 5 [] { s.hst with next := (n + 1) % 16 } [] [] [] fun _ => True)
  ∧ ((s.slot n).written = true → s.str.step = 15 →
    Answers .slotInterpretation s n 6 [] { s.hst with next := (n + 1) % 16 } [] [] [] fun _ => True)

/-- PING, GET_INFO, GET_STATUS, START_RECORD_READ and FAULT_COUNTERS answer what their rules say (R85, R413, R414, R461);
SET_MODE changes the mode (R415); expert access is challenged, unlocked once a share slot has ended the check of its
authorisation, locked, and ends (R412, R418); POWER_STATE asks for a domain's state or for block sleep (R419). -/
def Obligations.HostGeneral : Prop :=
  (∀ (s : State) (u : Nat), s.hst.expertUntil = some u → u ≤ s.clk.us → Gives .expertExpiry s fun t =>
    t.hst = { s.hst with expertUntil := none } ∧ Only [.hst] [] s t)
  ∧ (∀ (s : State) (n g : Nat) (b : List Byte), s.slotFree = true → n < 16 → s.hst.jobs = [⟨n, 0x41, g :: b.map (·.toNat)⟩] →
    let signed := s.keyCheck (byteAt b 12) ((b.drop 16).take 64) ((b.drop 80).take 64) (b.take 80) = 0
    let done (code : Nat) (h : Hst) := Completes .lanternShareSlot s n code [] { h with jobs := [] } [] (.flt :: lanternTraces) []
      fun t => t.flt = { s.flt with wdtFrom := s.flt.ft, wdtWarned := false }
    (g = 1 → signed → done 0 { s.hst with expertUntil := some (s.clk.us + 1000000 * word32 b 8) })
    ∧ (g ≠ 1 ∨ ¬ signed → done 4 s.hst))
  ∧ ∀ (s : State) (n : Nat) (ws : List Word), s.interprets n ws = true → s.hst.jobs = [] → s.banks.ecc = [] →
  s.bcn.role = 0 → s.bcn.resync = .none →
  let op := fld (ws.getD 0 0) 7 0
  let x := ws.getD 1 0
  let plain (c : Instr) (body : List Word) := Answers c s n 0 body s.hst [] [] [] fun _ => True
  let record (t : State) (a b : Nat) := t.log.queue = s.log.queue ++ [⟨s.clk.us % 2 ^ 48, s.str.startCount, 0x0004, 0x06,
    [BitVec.ofNat 8 a, BitVec.ofNat 8 b, 0]⟩] ∧ bit (t.reg Reg.HST_ATTN) 0 = true
  (op = 0x01 → plain .ping [x]) ∧ (op = 0x02 → plain .getInfo s.infoBody) ∧ (op = 0x04 → plain .getStatus s.statusBody)
  ∧ (op = 0x12 → plain .startRecordRead (bytesToWords s.recordBytes))
  ∧ (op = 0x50 → x = 0 → plain .faultCounters ((List.range 32).map s.fltCnt))
  ∧ (op = 0x50 → x = 1 → Answers .faultCounters s n 0 ((List.range 32).map s.fltCnt) s.hst [] [.flt]
    ((List.range 32).map fun c => Reg.FLT_CNT + 4 * c) fun t =>
      t.flt = { s.flt with ents := [] } ∧ ∀ c, c < 32 → t.reg (Reg.FLT_CNT + 4 * c) = 0)
  ∧ (op = 0x03 → x.toNat = s.scn.mode.code → x.toNat ≤ 2 → plain .setMode [])
  ∧ (op = 0x03 → x = 0 → s.scn.mode = .run → s.scn.phase ≠ .pad → Defers .setMode s ⟨n, 0x03, [0]⟩ [.scn] [] fun t =>
    t.scn = { s.scn with holdReq := false, stopReq := true })
  ∧ (op = 0x03 → x = 2 → s.calm = true → s.scn.phase = .program → s.domainsReady = true → s.str.gen ≠ 0 →
    (∀ m, s.car.running = some m → (s.ctx m).lkc = 0 ∧ (s.ctx m).slot = .none) → s.scn.hsafe = false → s.scn.staged = [] →
    s.log.queue.length < 17 →
    Answers .setMode s n 0 [] s.hst [] [.scn, .log] [Reg.HST_ATTN] fun t =>
      t.scn = { s.scn with mode := .hold, holdReq := false, stopReq := false } ∧ record t 1 2)
  ∧ (op = 0x41 → x = 0 → let k := (s.hst.issued + 1) % 2 ^ 32
    let c := s.challenge k
    Answers .expertChallenge s n 0 [BitVec.ofNat 32 c.toNat, BitVec.ofNat 32 (c.toNat / 2 ^ 32)]
      { s.hst with challenge := some c, issued := k } [] [] [] fun _ => True)
  ∧ (op = 0x41 → x = 2 → Answers .expertLock s n 0 [] { s.hst with expertUntil := none } [] [] [] fun _ => True)
  ∧ (op = 0x41 → x = 1 → s.inRun 11 = true → let b := wordsToBytes ((ws.drop 2).take 36)
    authOk b = true → Gives .expertUnlock s fun t => LanternDone s t ∧ Only [.hst, .lantern] [] s t
      ∧ t.hst = { s.hst with interp := none, challenge := none, jobs := [⟨n, 0x41,
        (if s.hst.challenge = some (dwordAt b 0) then 1 else 0) :: b.map (·.toNat)⟩] })
  ∧ (op = 0x48 → x = 0x1A → (s.dom 10).st = .run → s.required 10 = false → Defers .powerState s ⟨n, 0x48, [10, 1]⟩ [.pwr]
    [Reg.PWR_CTRL] fun t => (t.dom 10).st = .dozing ∧ (∀ m, m ≠ 10 → t.dom m = s.dom m) ∧ t.f Reg.PWR_CTRL 21 20 = 1)
  ∧ (op = 0x48 → x = 0x0A → (s.dom 10).st = .doze → Answers .powerState s n 0 [] s.hst [] [.pwr] [Reg.PWR_CTRL] fun t =>
    (t.dom 10).st = .run ∧ (∀ m, m ≠ 10 → t.dom m = s.dom m) ∧ bit (t.reg Reg.HST_IRQ) 3 = true)
  ∧ (op = 0x48 → x = 0x0F → s.scn.mode = .stop → bit s.clk.lost 7 = false → s.pwr.sleep = .awake →
    Answers .blockSleep s n 0 [] s.hst [] [.pwr] [] fun t => t.pwr = { s.pwr with sleep := .entering, sleepAt := s.clk.us, sleepSlot := some n })

/-- The keeper's log and DEBUG_GRANT from the host (R430, R431, R452 to R455): the log freezes, is read newest last, thaws,
and is cleared under a signed authorisation; a certificate's grant takes effect. Both are deferred until a share slot has ended the check
(R412). -/
def Obligations.HostLogAndGrant : Prop := ∀ (s : State) (n : Nat), n < 16 → s.bcn.resync = .none → s.banks.ecc = [] →
  s.reg Reg.MEM_MAPOUT = 0 →
  let range (off len : Nat) := off % 8 = 0 ∧ 0x1000 ≤ off ∧ off + len ≤ 0x40000
  let rec_ (code : Nat) (data : List Byte) : LogRec := ⟨s.clk.us % 2 ^ 48, s.str.startCount, code, 0x10F, data⟩
  let thawed : LogRec := rec_ 0x8061 (toBytes (s.reg Reg.LOG_LOST).toNat 4 ++ [0, BitVec.ofNat 8 s.log.causes])
  let ring (i : Nat) := 0x750000 + 64 * (i % 256)
  let head := s.f Reg.LOG_HEAD 7 0
  (∀ ws : List Word, s.interprets n ws = true →
  let op := fld (ws.getD 0 0) 7 0
  let x := (ws.getD 1 0).toNat
  let y := (ws.getD 2 0).toNat
  let b := (List.range y).map fun j => s.byte (0x6C0000 + x + j)
  (op = 0x38 → Answers .logFreeze s n 0 [] s.hst [] [.log] [Reg.LOG_STAT] fun t => bit (t.reg Reg.LOG_STAT) 0 = true
    ∧ bit (t.reg Reg.LOG_STAT) 1 = bit (s.reg Reg.LOG_STAT) 1 ∧ t.log = { s.log with causes := s.log.causes ||| 1 })
  ∧ (op = 0x39 → 1 ≤ y → y ≤ 256 → range x (64 * y) → let k := min y (s.f Reg.LOG_HEAD 24 16)
    (k ≤ 16 ∨ s.log.queue = []) →
    Answers .logRead s n 0 [BitVec.ofNat 32 k, s.reg Reg.LOG_LOST] s.hst
      [(0x6C0000 + x, (List.range k).flatMap fun j => (List.range 64).map fun i => s.byte (ring (head + 256 - k + j) + i))]
      [] [] fun _ => True)
  ∧ (op = 0x3B → s.f Reg.LOG_STAT 1 0 = 1 → s.log.side = [] → Answers .logThaw s n 0 [] s.hst [(ring head, thawed.bytes)] [.log]
    [Reg.LOG_STAT, Reg.LOG_HEAD, Reg.LOG_SEQ, Reg.HST_ATTN] fun t => t.f Reg.LOG_STAT 1 0 = 0
      ∧ t.f Reg.LOG_HEAD 7 0 = (head + 1) % 256 ∧ t.reg Reg.LOG_SEQ = s.reg Reg.LOG_SEQ + 1
      ∧ t.log = { s.log with causes := 0 })
  ∧ (op = 0x3A → range x y → s.f Reg.LOG_STAT 1 0 = 1 → s.inRun 11 = true → s.hst.jobs = [] →
    Defers .logClear s ⟨n, 0x3A, b.map (·.toNat)⟩ [] [] fun _ => True)
  ∧ (op = 0x40 → range x y → s.inRun 11 = true → s.hst.jobs = [] →
    Defers .debugGrant s ⟨n, 0x40, b.map (·.toNat)⟩ [] [] fun _ => True))
  ∧ (∀ b : List Byte, s.slotFree = true → s.inRun 11 = true →
    let signed := s.keyCheck (byteAt b 6) ((b.drop 16).take 64) ((b.drop 80).take 64) (b.take 80) = 0
    let done := Completes .lanternShareSlot s n
    let h := { s.hst with jobs := [] }
    (s.hst.jobs = [⟨n, 0x3A, b.map (·.toNat)⟩] → s.f Reg.LOG_STAT 1 0 = 1 → s.log.side = [] → clearAuthOk b = true →
      word32 b 8 = (s.reg Reg.LOG_SEQ).toNat → half b 12 = s.str.startCount →
      (signed → done 0 [] h
        [(ring 0, (rec_ 0x8060 (toBytes (s.reg Reg.LOG_SEQ).toNat 4 ++ [BitVec.ofNat 8 (byteAt b 6)])).bytes),
         (ring 1, thawed.bytes), (0x750000, List.replicate 0x4000 0)]
        (.log :: .flt :: lanternTraces) [Reg.LOG_STAT, Reg.LOG_HEAD, Reg.LOG_SEQ, Reg.HST_ATTN] fun t => t.f Reg.LOG_STAT 1 0 = 0
          ∧ t.reg Reg.LOG_HEAD = 0x20002 ∧ t.reg Reg.LOG_SEQ = s.reg Reg.LOG_SEQ + 2 ∧ t.log = { s.log with causes := 0 })
      ∧ (¬ signed → done 4 [] h [] (.flt :: lanternTraces) [] fun _ => True))
    ∧ (s.hst.jobs = [⟨n, 0x40, b.map (·.toNat)⟩] → s.str.step = 15 → certOk b = true → half b 12 ≤ s.str.startCount →
      s.str.startCount ≤ half b 14 →
      (signed → (s.dbgLevel < 2 ∨ byteAt b 7 = 2) → s.f Reg.DBG_TRCTRL 0 0 = 0 → bit s.car.latches 117 = false →
        done 0 [] h [] (.dbg :: .latches :: .flt :: lanternTraces) [] fun t => Latched s t 117
          ∧ t.dbg = { s.dbg with grant := some ⟨byteAt b 7, decide (byteAt b 8 % 2 = 1), byteAt b 6, half b 14⟩ })
      ∧ (¬ signed → done 4 [] h [] (.flt :: lanternTraces) [] fun _ => True)))

/-- Code banks and generations from the host (R352 to R357, R368): a load is deferred and copied, a digest is checked, a
commit waits, is refused by its timeout or is dropped, and constants are staged; a patch blob and a saved start record
are taken at S4 (R68, R84). -/
def Obligations.HostCode : Prop := ∀ (s : State) (n : Nat) (ws : List Word), n < 16 → s.bcn.role = 0 → s.bcn.resync = .none →
  s.banks.ecc = [] → s.reg Reg.MEM_MAPOUT = 0 → (∀ d, d < 12 → s.inRun d = true) →
  let op := fld (ws.getD 0 0) 7 0
  let w (i : Nat) := (ws.getD i 0).toNat
  let range (off len : Nat) := off % 8 = 0 ∧ 0x1000 ≤ off ∧ off + len ≤ 0x40000
  let now := s.interprets n ws = true ∧ s.hst.jobs = [] ∧ s.scn.mode = .run
  let atS4 := s.hst.interp = some (n, ws) ∧ s.str.step = 4 ∧ s.str.s4Ended = false ∧ s.lanternTurn = true
    ∧ s.car.running = none ∧ s.core.lantern.slot = false ∧ s.core.sb = [] ∧ fld s.str.cfg 31 16 ≠ 0
  (now → op = 0x08 → ∀ b, (b = 1 ∨ b = 2) → w 1 = b → w 2 % 8 = 0 → w 4 % 8 = 0 → 8 ≤ w 4 → w 4 ≤ 196608 → range (w 3) (w 4) →
    w 2 + w 4 ≤ 0x200000 → s.str.gen ≠ b → s.str.gen ≠ 3 → s.olc.commit = none →
    Defers .loadCode s ⟨n, 0x08, [b, w 2, w 3, w 4]⟩ [.olc] [] fun t => t.olc = { s.olc with
      digA := if b = 1 then [] else s.olc.digA, digB := if b = 2 then [] else s.olc.digB, digJ := [] })
  ∧ (∀ b off xb len, (b = 1 ∨ b = 2) → s.hst.interp = none → s.hst.jobs = [⟨n, 0x08, [b, off, xb, len]⟩] → range xb len →
    off + len ≤ 0x200000 → s.str.step = 15 →
    Completes .codeLoadComplete s n 0 [] { s.hst with jobs := [] }
      [(0x200000 * (b - 1) + off, (List.range len).map fun j => s.byte (0x6C0000 + xb + j))] [] [] fun _ => True)
  ∧ (now → op = 0x09 → ∀ t', 1 ≤ t' → t' ≤ 3 → w 1 = t' → s.headerOk t' = true →
    Defers .verifyCode s ⟨n, 0x09, [t', ofBytes (wordsToBytes ((ws.drop 2).take 8))]⟩ [] [] fun _ => True)
  ∧ (∀ d, s.hst.interp = none → s.hst.jobs = [⟨n, 0x09, [2, ofBytes d]⟩] → d.length = 32 → 4 ≤ s.str.step → s.str.halt = false →
    s.pwr.por = false → s.pwr.sleep ≠ .asleep → s.core.halt = .none → s.str.gen < 2 →
    let same := sha256 ((List.range (s.genLenOf 2)).map fun j => s.byte (0x200000 + j)) = d
    (same → Completes .digestComplete s n 0 [] { s.hst with jobs := [] } [] [.olc] [] fun t => t.olc = { s.olc with digB := d })
    ∧ (¬ same → Completes .digestComplete s n 4 [] { s.hst with jobs := [] } [] [.olc] [] fun t => t.olc = { s.olc with digB := [] }))
  ∧ (now → op = 0x0A → 1 ≤ w 1 → w 1 ≤ 3 → range (w 2) (w 3) → 16480 ≤ w 3 → s.olc.commit = none →
    s.verified (w 1) ≠ [] → (w 1 = 3 → s.str.gen = 0) → s.commitContentOk (w 1) = true →
    Defers .commitGeneration s ⟨n, 0x0A, [w 1]⟩ [.olc] [] fun t =>
      t.olc = { s.olc with commit := some ⟨n, w 1, w 2, w 3, s.clk.us⟩ })
  ∧ (∀ c : Commit, s.olc.commit = some c → c.slot = n → c.target = 2 → range c.report c.replen → 16480 ≤ c.replen →
    s.calm = true → s.scn.phase = .housekeeping → s.scn.h1Done = true → 4 ≤ s.str.step → s.str.halt = false →
    s.pwr.sleep ≠ .asleep → c.at_ + 1000 * s.f Reg.OLC_CFG 15 0 ≤ s.clk.us → s.hst.interp = none → s.hst.jobs = [⟨n, 0x0A, [2]⟩] →
    Completes .commitTimeout s n 5 [] { s.hst with jobs := [] }
      [(0x6C0000 + c.report, toBytes 1 4 ++ toBytes 0 4 ++ toBytes (s.genId 2) 4
        ++ toBytes (if s.str.gen = 0 then 0 else (s.reg Reg.OLC_GENID).toNat) 4 ++ List.replicate 16 0 ++ List.replicate 64 0xFF)]
      [.olc] [Reg.OLC_HTMO] fun t => t.olc = { s.olc with commit := none }
        ∧ t.reg Reg.OLC_HTMO = BitVec.ofNat 32 (satInc (s.reg Reg.OLC_HTMO).toNat 0xFFFFFFFF))
  ∧ (∀ c : Commit, ∀ m, s.interprets n ws = true → op = 0x0B → w 1 = 0 → s.olc.commit = some c → m ≠ n →
    s.hst.jobs = [⟨m, 0x0A, [c.target]⟩] → Gives .abortGeneration s fun t => t.olc = { s.olc with commit := none }
      ∧ (t.slot n).st = 3 ∧ (t.slot n).code = 0 ∧ (t.slot m).st = 3 ∧ (t.slot m).code = 7 ∧ t.hst.jobs = [] ∧ t.hst.interp = none
      ∧ t.reg Reg.HST_ABTCNT = BitVec.ofNat 32 (satInc (s.reg Reg.HST_ABTCNT).toNat 0xFFFFFFFF) ∧ LanternDone s t
      ∧ Only [.olc, .hst, .lantern] [Reg.HST_IRQ, Reg.HST_CMDCNT, Reg.HST_ABTCNT] s t)
  ∧ (now → op = 0x0C → 1 ≤ w 1 → w 1 ≤ 27 → s.olc.consts.length < 16 → s.str.gen ≠ 0 →
    (constEntries ws).all s.constEntryOk = true → constDigestOk ws = true →
    Defers .patchConst s ⟨n, 0x0C, []⟩ [.olc] [] fun t => t.olc = { s.olc with consts := s.olc.consts ++ [(n, ws)] })
  ∧ (atS4 → op = 0x10 → s.str.decided = true → s.str.blobs = [] → s.hst.jobs = [] → 0 < w 2 → w 2 ≤ 245760 →
    range (w 1) (w 2) → w 3 = 0 →
    let bs := (List.range (w 2)).map fun j => s.byte (0x6C0000 + w 1 + j)
    Gives .loadPatch s fun t => t.str.blobs = [⟨n, w 2, none⟩] ∧ t.str.patchIds = word32 bs 8 :: s.str.patchIds.drop 1
      ∧ t.str.step = 4 ∧ t.hst = { s.hst with interp := none, jobs := [⟨n, 0x10, []⟩] } ∧ BytesWritten s t 0x400000 bs
      ∧ LanternDone s t ∧ Only [.str, .hst, .mem, .lantern] [] s t)
  ∧ (atS4 → op = 0x11 → s.str.cold = true → s.str.firstDone = false → s.str.decided = false →
    let b := wordsToBytes ((ws.drop 1).take 32)
    crc32 (b.take 124) = word32 b 124 → word32 b 0 = 0x00800001 → (∀ k, k < 10 → byteAt b (8 + 4 * k) / 4 % 4 ≠ 3) →
    Gives .startRecordRestore s fun t => t.str.startCount = (half b 4 + 1) % 65536 ∧ t.str.restored = true
      ∧ (half b 54 &&& 0xA8A = half b 54 → t.str.mapout = half b 54) ∧ t.str.cfg = BitVec.ofNat 32 (word32 b 48) ∧ t.str.lastRun = half b 76
      ∧ (∀ k, k < 10 → t.stepRec k = { s.stepRec k with count := byteAt b (8 + 4 * k) / 4 % 4 })
      ∧ (t.slot n).st = 3 ∧ (t.slot n).code = 0
      ∧ (fld t.str.cfg 31 16 ≠ 0 → t.str.step = 4 ∧ LanternDone s t
        ∧ Only [.str, .hst, .lantern] [Reg.STR_CFG, Reg.HST_IRQ, Reg.HST_CMDCNT] s t))

/-- Forces, stations, Beat, governor, pair and cascade from the host (R284, R302, R303, R313, R317, R345, R400, R416,
R417): what RUN stages, and what STOP admits at once. -/
def Obligations.HostConfig : Prop := ∀ (s : State) (n : Nat) (ws : List Word), s.interprets n ws = true →
  s.banks.ecc = [] → s.reg Reg.MEM_MAPOUT = 0 → (∀ d, d < 12 → s.inRun d = true) → s.bcn.resync = .none →
  let op := fld (ws.getD 0 0) 7 0
  let word (i : Nat) := ws.getD i 0
  let w (i : Nat) := (word i).toNat
  let range (off len : Nat) := off % 8 = 0 ∧ 0x1000 ≤ off ∧ off + len ≤ 0x40000
  let running := s.scn.mode = .run ∧ s.bcn.role = 0
  let stages (c : Instr) (x : Staged) := Answers c s n 0 [] s.hst [] [.flk] [] fun t =>
    t.flk = { s.flk with staged := s.flk.staged ++ [x] }
  let forces (c : Instr) (x : ForceOp) := Answers c s n 0 [] s.hst [] [.scn] [] fun t =>
    t.scn = { s.scn with staged := s.scn.staged ++ [x] }
  (op = 0x18 → running → ∀ p v, p < 0x80000 → word 1 = BitVec.ofNat 32 (p + 2 ^ 24 * v.toNat) →
    ((ForceOp.set p v).apply s.forcesStaged).length ≤ 1024 → forces .forceSet (.set p v))
  ∧ (op = 0x19 → running → ∀ p, p < 0x80000 → w 1 = p → forces .forceClear (.clear p))
  ∧ (op = 0x19 → running → w 1 = 2 ^ 31 → forces .forceClear .clearAll)
  ∧ (op = 0x1A → 8 ≤ w 2 → range (w 1) (w 2) → let l := s.forces.take ((w 2 - 8) / 24)
    Answers .forceList s n 0 [BitVec.ofNat 32 l.length, BitVec.ofNat 32 s.forces.length] s.hst
      [(0x6C0000 + w 1, toBytes s.forces.length 4 ++ toBytes s.scn.staged.length 4
        ++ l.flatMap fun f => toBytes f.word 8 ++ toBytes f.fe.toNat 8 ++ toBytes f.fv.toNat 8)] [] [] fun _ => True)
  ∧ (op = 0x20 → running → range (w 1) (w 2) → let b := (List.range (w 2)).map fun j => s.byte (0x6C0000 + w 1 + j)
    s.cbAccepted b = true → stages .stationConfig (.station b))
  ∧ (op = 0x21 → running → ∀ x, w 1 < 512 → s.cfgStaged.hf (w 1) = some x → x.wi = w 4 → w 4 < 32 → x.st ≠ .failed →
    s.flk.staged.all (fun e => match e with
      | .feed k _ _ _ => decide (k ≠ w 1)
      | _ => true) = true →
    stages .stationFeed (.feed (w 1) (w 2) (w 3)
      ((List.range (w 4)).map fun j => BitVec.ofNat 64 (w (5 + 2 * j) + 2 ^ 32 * w (6 + 2 * j)))))
  ∧ (op = 0x22 → s.imageHeld = false → ∀ k x, k < 256 → w 1 = k → s.stn k = some x →
    Answers .stationStatus s n 0
      [BitVec.ofNat 32 (s.shStat (256 + k)).toNat, BitVec.ofNat 32 ((s.shStat (256 + k)).toNat / 2 ^ 32),
        BitVec.ofNat 32 (min x.miss 255 + 256 * x.ferr), s.reg (Reg.FLK_LROUND + 0x20 * (k / 32)), BitVec.ofNat 32 s.scn.outCyc, 0]
      s.hst [] [] [] fun _ => True)
  ∧ (∀ c page, (op, c, page) ∈ [(0x28, Instr.beatConfig, 0x08), (0x29, .governorConfig, 0x09)] → running → 1 ≤ w 1 → w 1 ≤ 31 →
    let l := (List.range (w 1)).map fun j => (pageBase page + w (2 + 2 * j) % 0x1000, word (3 + 2 * j))
    (regEntries ws).all (s.entryOk page) = true → (s.afterPacket op ws).pointsDistinct = true →
    stages c (if op = 0x28 then .beat l else .gov l))
  ∧ (op = 0x30 → s.scn.mode = .stop → s.bcn.role ≤ 2 → w 2 = 0 → w 3 = 0 → ∀ v, v < 4 → w 1 = v →
    let role := if v % 2 = 0 then 0 else if bit (s.reg Reg.PWR_STRAP) 3 then 1 else 2
    Answers .standbyConfig s n 0 [] s.hst [] [.bcn] [Reg.BCN_CFG, Reg.BCN_TIME, Reg.BCN_REPL] fun t => t.f Reg.BCN_CFG 1 0 = v
      ∧ t.bcn.role = role ∧ (∀ k, k < 32 → bit (t.reg Reg.BCN_TIME) k = bit (s.reg Reg.BCN_TIME) k)
      ∧ (s.bcn.role = role → t.bcn = s.bcn))
  ∧ (op = 0x31 → w 1 = 1 → s.bcn.role = 2 → s.scn.mode = .stop →
    Answers .takeover s n 0 [] s.hst [] [.bcn, .evtOut] [] fun t => t.bcn = { s.bcn with role := 1 }
      ∧ t.car.evtOut = s.car.evtOut ∧ t.car.evtHeld = true)
  ∧ (op = 0x31 → w 1 = 0 → s.bcn.role = 1 → s.bcn.sync = true → s.hst.jobs = [] →
    Defers .takeover s ⟨n, 0x31, []⟩ [.bcn] [] fun t => t.bcn = { s.bcn with handoff := true })
  ∧ (op = 0x32 → s.scn.mode = .stop → w 1 < 512 → bit (word 1) 0 = true → bit (word 1) (s.f Reg.PWR_STRAP 2 0) = true →
    w 2 + 64 ≤ 8192 → w 3 = 0 → Answers .chainConfig s n 0 [] s.hst [] [] [Reg.CHN_CFG, Reg.CHN_MBASE, Reg.CHN_TIME] fun t =>
      t.f Reg.CHN_CFG 8 0 = w 1 ∧ t.f Reg.CHN_MBASE 12 0 = w 2
      ∧ (∀ k, k < 32 → bit (t.reg Reg.CHN_TIME) k = bit (s.reg Reg.CHN_TIME) k))

/-! ### The whole block -/

/-- A step runs the command at the front of the queue, with the queue's rest. -/
def Obligations.StepRunsFront : Prop := ∀ (c : Instr) (s : State) (rest : List Instr), s.pending = c :: rest →
  step s = exec c { s with pending := rest }

/-- No command faults or is refused: exec answers a next state. -/
def Obligations.EveryCommandAnswers : Prop := ∀ (c : Instr) (s : State), ∃ t, exec c s = .next t

/-- On an empty queue a step of µs time passes, 1 µs or while WDT_CLK is lost a cycle of KEEP_CLK (R45), and nothing while POR_N
is 0: that it passes then is the model's choice (log entry 1). -/
def Obligations.IdleStep : Prop := ∀ (s : State), s.pending = [] →
  (s.pwr.por = true → step s = .next s)
  ∧ (s.pwr.por = false → s.traceOn = false → s.scn.mode = .run →
    let us := if bit s.clk.lost 6 then (s.clk.keepFrac + 15625) / 512 else 1
    ∃ t, step s = .next t ∧ t.clk.us = s.clk.us + us ∧ t.flt.ft = s.flt.ft + us ∧ t.mem = s.mem ∧ t.regs = s.regs ∧ t.car = s.car ∧ t.core = s.core ∧ t.scn = s.scn ∧ t.pending = [])

/-- What reset leaves (R8, R33, R54, R56, R63 and each register's Reset value): every register at the value of its table,
the domains but PD0 off, no mode, no bank byte written, in canonical form. -/
def Obligations.ResetState : Prop := State.reset.canonical ∧ State.reset.pending = [] ∧ State.reset.scn.mode = .none
  ∧ State.reset.pwr.por = true ∧ State.reset.str.gen = 0 ∧ State.reset.str.startCount = 0
  ∧ (∀ n, 1 ≤ n → (State.reset.dom n).st = .off) ∧ (∀ a, State.reset.reg a = resetValue a)
  ∧ (∀ a, State.reset.byte a = memDefault a)

/-- Every step keeps the stores in canonical form. -/
def Obligations.CanonicalKept : Prop := ∀ (s t : State), s.canonical → step s = .next t → t.canonical
end

