-- ==== Sys2Proof/Laws/Maps.lean ====
section
/-! SUPPORT. The laws of the sparse maps: a read after a write, and the canonical form under every operation. -/

namespace Sys2Proof.Machine

variable {α : Type} [DecidableEq α]

omit [DecidableEq α] in
theorem Map.get_above (d : Nat → α) (b : Nat) (t : List (Nat × α)) (i : Nat) (h : Map.above b t = true) (hi : i ≤ b) :
    Map.get d t i = d i := by
  induction t with
  | nil => rfl
  | cons e t ih =>
    obtain ⟨k, v⟩ := e
    simp only [Map.above, Bool.and_eq_true, decide_eq_true_eq] at h
    simp only [Map.get]
    rw [if_neg (by omega)]
    exact ih h.2

omit [DecidableEq α] in
theorem Map.above_mono (b c : Nat) (t : List (Nat × α)) (h : Map.above c t = true) (hbc : b ≤ c) : Map.above b t = true := by
  induction t with
  | nil => rfl
  | cons e t ih =>
    obtain ⟨k, v⟩ := e
    simp only [Map.above, Bool.and_eq_true, decide_eq_true_eq] at h ⊢
    exact ⟨by omega, ih h.2⟩

/-! ### Drop -/

omit [DecidableEq α] in
/-- A dropped key reads as unlisted, and every other key as before. -/
theorem Map.get_drop (d : Nat → α) (p : Nat → Bool) (m : List (Nat × α)) (i : Nat) :
    Map.get d (Map.drop p m) i = if p i then d i else Map.get d m i := by
  induction m with
  | nil => simp [Map.drop, Map.get]
  | cons e t ih =>
    obtain ⟨k, v⟩ := e
    have hd : Map.drop p ((k, v) :: t) = if p k then Map.drop p t else (k, v) :: Map.drop p t := by
      unfold Map.drop
      rw [List.filter_cons]
      cases p k <;> simp
    rw [hd]
    by_cases hi : i = k
    · subst hi
      cases hp : p i <;> simp [Map.get, ih, hp]
    · cases hp : p k <;> simp [Map.get, ih, hi]

omit [DecidableEq α] in
theorem Map.above_drop (p : Nat → Bool) (b : Nat) (m : List (Nat × α)) (h : Map.above b m = true) :
    Map.above b (Map.drop p m) = true := by
  induction m with
  | nil => rfl
  | cons e t ih =>
    obtain ⟨k, v⟩ := e
    simp only [Map.above, Bool.and_eq_true, decide_eq_true_eq] at h
    unfold Map.drop
    rw [List.filter_cons]
    split
    · simp only [Map.above, Bool.and_eq_true, decide_eq_true_eq]; exact ⟨h.1, ih h.2⟩
    · exact ih h.2

/-- Dropping entries keeps the canonical form. -/
theorem Map.wf_drop (d : Nat → α) (p : Nat → Bool) (m : List (Nat × α)) (h : Map.wf d m = true) :
    Map.wf d (Map.drop p m) = true := by
  induction m with
  | nil => rfl
  | cons e t ih =>
    obtain ⟨k, v⟩ := e
    simp only [Map.wf, Bool.and_eq_true, decide_eq_true_eq] at h
    unfold Map.drop
    rw [List.filter_cons]
    split
    · simp only [Map.wf, Bool.and_eq_true, decide_eq_true_eq]
      exact ⟨⟨Map.above_drop p k t h.1.1, h.1.2⟩, ih h.2⟩
    · exact ih h.2

/-! ### Set -/

omit [DecidableEq α] in
theorem Map.get_absent (d : Nat → α) (m : List (Nat × α)) (i : Nat) (h : ∀ e ∈ m, e.1 ≠ i) : Map.get d m i = d i := by
  induction m with
  | nil => rfl
  | cons e t ih =>
    obtain ⟨k, v⟩ := e
    have hk : k ≠ i := h (k, v) (List.mem_cons_self ..)
    simp only [Map.get]
    rw [if_neg (by omega)]
    exact ih fun e he => h e (List.mem_cons_of_mem _ he)

theorem Map.get_put (d : Nat → α) (k : Nat) (v : α) (t : List (Nat × α)) (i : Nat) (h : Map.get d t k = d k) :
    Map.get d (Map.put d k v t) i = if i = k then v else Map.get d t i := by
  unfold Map.put
  split
  · rename_i hv
    split
    · rename_i hi; subst hi; rw [h, hv]
    · rfl
  · rfl

theorem Map.get_insert (d : Nat → α) (m : List (Nat × α)) (i : Nat) (x : α) (j : Nat) (h : ∀ e ∈ m, e.1 ≠ i) :
    Map.get d (Map.insert d m i x) j = if j = i then x else Map.get d m j := by
  induction m with
  | nil => exact Map.get_put d i x [] j rfl
  | cons e t ih =>
    obtain ⟨k, v⟩ := e
    have hk : k ≠ i := h (k, v) (List.mem_cons_self ..)
    unfold Map.insert
    split
    · exact Map.get_put d i x _ j (Map.get_absent d _ i h)
    · simp only [Map.get]
      rw [ih fun e he => h e (List.mem_cons_of_mem _ he)]
      by_cases hj : j = i
      · subst hj; rw [if_neg (by omega), if_pos rfl, if_pos rfl]
      · simp [hj]

/-- A read after a write to the same key gives the value written, and a write leaves every other key alone. -/
theorem Map.get_set (d : Nat → α) (m : List (Nat × α)) (i : Nat) (x : α) (j : Nat) :
    Map.get d (Map.set d m i x) j = if j = i then x else Map.get d m j := by
  unfold Map.set
  rw [Map.get_insert, Map.get_drop]
  · by_cases hj : j = i <;> simp [hj]
  · intro e he
    simp only [Map.drop, List.mem_filter, Bool.not_eq_true', beq_eq_false_iff_ne] at he
    exact he.2

@[simp] theorem Map.get_set_same (d : Nat → α) (m : List (Nat × α)) (i : Nat) (x : α) :
    Map.get d (Map.set d m i x) i = x := by rw [Map.get_set, if_pos rfl]

theorem Map.get_set_other (d : Nat → α) (m : List (Nat × α)) (i j : Nat) (x : α) (h : j ≠ i) :
    Map.get d (Map.set d m i x) j = Map.get d m j := by rw [Map.get_set, if_neg h]

omit [DecidableEq α] in
theorem Map.drop_absent (m : List (Nat × α)) (i : Nat) (h : ∀ e ∈ m, e.1 ≠ i) : Map.drop (· == i) m = m := by
  unfold Map.drop
  rw [List.filter_eq_self]
  intro e he
  simp [h e he]

theorem Map.drop_insert (d : Nat → α) (m : List (Nat × α)) (i : Nat) (x : α) (h : ∀ e ∈ m, e.1 ≠ i) :
    Map.drop (· == i) (Map.insert d m i x) = m := by
  have put : ∀ t : List (Nat × α), (∀ e ∈ t, e.1 ≠ i) → Map.drop (· == i) (Map.put d i x t) = t := by
    intro t ht
    unfold Map.put
    split
    · exact Map.drop_absent t i ht
    · have : Map.drop (· == i) ((i, x) :: t) = Map.drop (· == i) t := by simp [Map.drop]
      rw [this]
      exact Map.drop_absent t i ht
  induction m with
  | nil => exact put [] h
  | cons e t ih =>
    obtain ⟨k, v⟩ := e
    have hk : k ≠ i := h (k, v) (List.mem_cons_self ..)
    unfold Map.insert
    split
    · exact put _ h
    · have : Map.drop (· == i) ((k, v) :: Map.insert d t i x) = (k, v) :: Map.drop (· == i) (Map.insert d t i x) := by
        simp [Map.drop, hk]
      rw [this, ih fun e he => h e (List.mem_cons_of_mem _ he)]

/-- Of two writes to one key the later stands. -/
@[simp] theorem Map.set_set (d : Nat → α) (m : List (Nat × α)) (i : Nat) (x y : α) :
    Map.set d (Map.set d m i x) i y = Map.set d m i y := by
  unfold Map.set
  rw [Map.drop_insert]
  intro e he
  simp only [Map.drop, List.mem_filter, Bool.not_eq_true', beq_eq_false_iff_ne] at he
  exact he.2

theorem Map.above_insert (d : Nat → α) (b : Nat) (m : List (Nat × α)) (i : Nat) (x : α) (hi : b < i)
    (h : Map.above b m = true) : Map.above b (Map.insert d m i x) = true := by
  have put : ∀ t : List (Nat × α), Map.above b t = true → Map.above b (Map.put d i x t) = true := by
    intro t ht
    unfold Map.put
    split
    · exact ht
    · simp [Map.above, hi, ht]
  induction m with
  | nil => exact put [] rfl
  | cons e t ih =>
    obtain ⟨k, v⟩ := e
    have h' := h
    simp only [Map.above, Bool.and_eq_true, decide_eq_true_eq] at h
    unfold Map.insert
    split
    · exact put _ h'
    · simp [Map.above, h.1, ih h.2]

theorem Map.wf_put (d : Nat → α) (k : Nat) (v : α) (t : List (Nat × α)) (ha : Map.above k t = true)
    (h : Map.wf d t = true) : Map.wf d (Map.put d k v t) = true := by
  unfold Map.put
  split
  · exact h
  · rename_i hv; simp [Map.wf, ha, h, hv]

theorem Map.wf_insert (d : Nat → α) (m : List (Nat × α)) (i : Nat) (x : α) (ha : ∀ e ∈ m, e.1 ≠ i)
    (h : Map.wf d m = true) : Map.wf d (Map.insert d m i x) = true := by
  induction m with
  | nil => exact Map.wf_put d i x [] rfl rfl
  | cons e t ih =>
    obtain ⟨k, v⟩ := e
    have h' := h
    have hk : k ≠ i := ha (k, v) (List.mem_cons_self ..)
    simp only [Map.wf, Bool.and_eq_true, decide_eq_true_eq] at h
    unfold Map.insert
    split
    · rename_i hik
      refine Map.wf_put d i x _ ?_ h'
      simp only [Map.above, Bool.and_eq_true, decide_eq_true_eq]
      exact ⟨hik, Map.above_mono i k t h.1.1 (by omega)⟩
    · simp only [Map.wf, Bool.and_eq_true, decide_eq_true_eq]
      exact ⟨⟨Map.above_insert d k t i x (by omega) h.1.1, h.1.2⟩, ih (fun e he => ha e (List.mem_cons_of_mem _ he)) h.2⟩

/-- A write keeps the canonical form. -/
theorem Map.wf_set (d : Nat → α) (m : List (Nat × α)) (i : Nat) (x : α) (h : Map.wf d m = true) :
    Map.wf d (Map.set d m i x) = true := by
  refine Map.wf_insert d _ i x ?_ (Map.wf_drop d _ m h)
  intro e he
  simp only [Map.drop, List.mem_filter, Bool.not_eq_true', beq_eq_false_iff_ne] at he
  exact he.2

theorem Map.wf_setAll (d : Nat → α) (m : List (Nat × α)) (i : Nat) (xs : List α) (h : Map.wf d m = true) :
    Map.wf d (Map.setAll d m i xs) = true := by
  induction xs generalizing m i with
  | nil => exact h
  | cons x xs ih => exact ih _ _ (Map.wf_set d m i x h)

/-- After a write of a list, its keys hold its values, and every other key reads as before. -/
theorem Map.get_setAll (d : Nat → α) (m : List (Nat × α)) (i : Nat) (xs : List α) (j : Nat) :
    Map.get d (Map.setAll d m i xs) j = if i ≤ j ∧ j < i + xs.length then xs.getD (j - i) (d j) else Map.get d m j := by
  induction xs generalizing m i with
  | nil =>
    rw [if_neg (by simp only [List.length_nil]; omega)]
    rfl
  | cons x xs ih =>
    simp only [Map.setAll, List.length_cons]
    rw [ih _ _, Map.get_set d m i x j]
    by_cases h1 : j = i
    · subst h1
      rw [if_neg (by omega), if_pos rfl, if_pos (by omega)]
      simp
    · by_cases h2 : i + 1 ≤ j ∧ j < i + 1 + xs.length
      · rw [if_pos h2, if_pos (by omega)]
        obtain ⟨k, hk⟩ : ∃ k, j - i = k + 1 := ⟨j - i - 1, by omega⟩
        rw [hk, List.getD_cons_succ]
        congr 1
        omega
      · rw [if_neg h2, if_neg h1, if_neg (by omega)]

/-- Canonical maps that read alike are equal. -/
theorem Map.ext (d : Nat → α) (m m' : List (Nat × α)) (h : Map.wf d m = true) (h' : Map.wf d m' = true)
    (heq : ∀ i, Map.get d m i = Map.get d m' i) : m = m' := by
  induction m generalizing m' with
  | nil =>
    cases m' with
    | nil => rfl
    | cons e t =>
      obtain ⟨k, v⟩ := e
      have := heq k
      simp only [Map.wf, Bool.and_eq_true, decide_eq_true_eq] at h'
      simp [Map.get] at this
      exact absurd this.symm h'.1.2
  | cons e t ih =>
    obtain ⟨k, v⟩ := e
    simp only [Map.wf, Bool.and_eq_true, decide_eq_true_eq] at h
    cases m' with
    | nil =>
      have := heq k
      simp [Map.get] at this
      exact absurd this h.1.2
    | cons e' t' =>
      obtain ⟨k', v'⟩ := e'
      simp only [Map.wf, Bool.and_eq_true, decide_eq_true_eq] at h'
      have hk : k = k' := by
        rcases Nat.lt_trichotomy k k' with hlt | he | hgt
        · have := heq k
          simp only [Map.get, if_pos] at this
          rw [if_neg (by omega), Map.get_above d k' t' k h'.1.1 (by omega)] at this
          exact absurd this h.1.2
        · exact he
        · have := heq k'
          simp only [Map.get, if_pos] at this
          rw [if_neg (by omega), Map.get_above d k t k' h.1.1 (by omega)] at this
          exact absurd this.symm h'.1.2
      subst hk
      have hv : v = v' := by have := heq k; simpa [Map.get] using this
      subst hv
      congr 1
      apply ih t' h.2 h'.2
      intro i
      have hi := heq i
      simp only [Map.get] at hi
      by_cases hik : i = k
      · subst hik
        rw [Map.get_above d i t i h.1.1 (Nat.le_refl i), Map.get_above d i t' i h'.1.1 (Nat.le_refl i)]
      · simpa [hik] using hi

/-- Writing what a key reads as changes nothing. -/
theorem Map.set_self (d : Nat → α) (m : List (Nat × α)) (i : Nat) (x : α) (h : Map.wf d m = true) (hx : Map.get d m i = x) :
    Map.set d m i x = m := by
  refine Map.ext d _ _ (Map.wf_set d m i x h) h fun j => ?_
  rw [Map.get_set d m i x j]
  split
  · next e => rw [e, hx]
  · rfl

/-- Writing a list of what its keys read as changes nothing. -/
theorem Map.setAll_self (d : Nat → α) (m : List (Nat × α)) (i : Nat) (xs : List α) (h : Map.wf d m = true)
    (hx : ∀ j, j < xs.length → Map.get d m (i + j) = xs.getD j (d (i + j))) : Map.setAll d m i xs = m := by
  refine Map.ext d _ _ (Map.wf_setAll d m i xs h) h fun j => ?_
  rw [Map.get_setAll d m i xs j]
  split
  · next e =>
    obtain ⟨k, rfl⟩ : ∃ k, j = i + k := ⟨j - i, by omega⟩
    rw [show i + k - i = k by omega]
    exact (hx k (by omega)).symm
  · rfl

end Sys2Proof.Machine
end

