-- ==== Sys2Proof/Laws/State.lean ====
section
/-! SUPPORT. What each small update of State leaves as it was, field by field, and what it makes of the store it writes. -/

namespace Sys2Proof.Machine

/-! ### setReg -/

@[simp] theorem State.setReg_pending (s : State) (a : Nat) (v : Word) : (s.setReg a v).pending = s.pending := rfl
@[simp] theorem State.setReg_mem (s : State) (a : Nat) (v : Word) : (s.setReg a v).mem = s.mem := rfl
@[simp] theorem State.setReg_core (s : State) (a : Nat) (v : Word) : (s.setReg a v).core = s.core := rfl
@[simp] theorem State.setReg_car (s : State) (a : Nat) (v : Word) : (s.setReg a v).car = s.car := rfl
@[simp] theorem State.setReg_scn (s : State) (a : Nat) (v : Word) : (s.setReg a v).scn = s.scn := rfl
@[simp] theorem State.setReg_log (s : State) (a : Nat) (v : Word) : (s.setReg a v).log = s.log := rfl
@[simp] theorem State.setReg_flt (s : State) (a : Nat) (v : Word) : (s.setReg a v).flt = s.flt := rfl
@[simp] theorem State.setReg_hst (s : State) (a : Nat) (v : Word) : (s.setReg a v).hst = s.hst := rfl
@[simp] theorem State.setReg_pwr (s : State) (a : Nat) (v : Word) : (s.setReg a v).pwr = s.pwr := rfl
@[simp] theorem State.setReg_clk (s : State) (a : Nat) (v : Word) : (s.setReg a v).clk = s.clk := rfl
@[simp] theorem State.setReg_str (s : State) (a : Nat) (v : Word) : (s.setReg a v).str = s.str := rfl
@[simp] theorem State.setReg_mcs (s : State) (a : Nat) (v : Word) : (s.setReg a v).mcs = s.mcs := rfl
@[simp] theorem State.setReg_banks (s : State) (a : Nat) (v : Word) : (s.setReg a v).banks = s.banks := rfl
@[simp] theorem State.setReg_flk (s : State) (a : Nat) (v : Word) : (s.setReg a v).flk = s.flk := rfl
@[simp] theorem State.setReg_bea (s : State) (a : Nat) (v : Word) : (s.setReg a v).bea = s.bea := rfl
@[simp] theorem State.setReg_gov (s : State) (a : Nat) (v : Word) : (s.setReg a v).gov = s.gov := rfl
@[simp] theorem State.setReg_olc (s : State) (a : Nat) (v : Word) : (s.setReg a v).olc = s.olc := rfl
@[simp] theorem State.setReg_bcn (s : State) (a : Nat) (v : Word) : (s.setReg a v).bcn = s.bcn := rfl
@[simp] theorem State.setReg_chn (s : State) (a : Nat) (v : Word) : (s.setReg a v).chn = s.chn := rfl
@[simp] theorem State.setReg_dbg (s : State) (a : Nat) (v : Word) : (s.setReg a v).dbg = s.dbg := rfl
@[simp] theorem State.setReg_free (s : State) (a : Nat) (v : Word) : (s.setReg a v).free = s.free := rfl

/-! ### setF -/

@[simp] theorem State.setF_pending (s : State) (a hi lo v : Nat) : (s.setF a hi lo v).pending = s.pending := rfl
@[simp] theorem State.setF_mem (s : State) (a hi lo v : Nat) : (s.setF a hi lo v).mem = s.mem := rfl
@[simp] theorem State.setF_core (s : State) (a hi lo v : Nat) : (s.setF a hi lo v).core = s.core := rfl
@[simp] theorem State.setF_car (s : State) (a hi lo v : Nat) : (s.setF a hi lo v).car = s.car := rfl
@[simp] theorem State.setF_scn (s : State) (a hi lo v : Nat) : (s.setF a hi lo v).scn = s.scn := rfl
@[simp] theorem State.setF_log (s : State) (a hi lo v : Nat) : (s.setF a hi lo v).log = s.log := rfl
@[simp] theorem State.setF_flt (s : State) (a hi lo v : Nat) : (s.setF a hi lo v).flt = s.flt := rfl
@[simp] theorem State.setF_hst (s : State) (a hi lo v : Nat) : (s.setF a hi lo v).hst = s.hst := rfl
@[simp] theorem State.setF_pwr (s : State) (a hi lo v : Nat) : (s.setF a hi lo v).pwr = s.pwr := rfl
@[simp] theorem State.setF_clk (s : State) (a hi lo v : Nat) : (s.setF a hi lo v).clk = s.clk := rfl
@[simp] theorem State.setF_str (s : State) (a hi lo v : Nat) : (s.setF a hi lo v).str = s.str := rfl
@[simp] theorem State.setF_mcs (s : State) (a hi lo v : Nat) : (s.setF a hi lo v).mcs = s.mcs := rfl
@[simp] theorem State.setF_banks (s : State) (a hi lo v : Nat) : (s.setF a hi lo v).banks = s.banks := rfl
@[simp] theorem State.setF_flk (s : State) (a hi lo v : Nat) : (s.setF a hi lo v).flk = s.flk := rfl
@[simp] theorem State.setF_bea (s : State) (a hi lo v : Nat) : (s.setF a hi lo v).bea = s.bea := rfl
@[simp] theorem State.setF_gov (s : State) (a hi lo v : Nat) : (s.setF a hi lo v).gov = s.gov := rfl
@[simp] theorem State.setF_olc (s : State) (a hi lo v : Nat) : (s.setF a hi lo v).olc = s.olc := rfl
@[simp] theorem State.setF_bcn (s : State) (a hi lo v : Nat) : (s.setF a hi lo v).bcn = s.bcn := rfl
@[simp] theorem State.setF_chn (s : State) (a hi lo v : Nat) : (s.setF a hi lo v).chn = s.chn := rfl
@[simp] theorem State.setF_dbg (s : State) (a hi lo v : Nat) : (s.setF a hi lo v).dbg = s.dbg := rfl
@[simp] theorem State.setF_free (s : State) (a hi lo v : Nat) : (s.setF a hi lo v).free = s.free := rfl

/-! ### setB -/

@[simp] theorem State.setB_pending (s : State) (a i : Nat) : (s.setB a i).pending = s.pending := rfl
@[simp] theorem State.setB_mem (s : State) (a i : Nat) : (s.setB a i).mem = s.mem := rfl
@[simp] theorem State.setB_core (s : State) (a i : Nat) : (s.setB a i).core = s.core := rfl
@[simp] theorem State.setB_car (s : State) (a i : Nat) : (s.setB a i).car = s.car := rfl
@[simp] theorem State.setB_scn (s : State) (a i : Nat) : (s.setB a i).scn = s.scn := rfl
@[simp] theorem State.setB_log (s : State) (a i : Nat) : (s.setB a i).log = s.log := rfl
@[simp] theorem State.setB_flt (s : State) (a i : Nat) : (s.setB a i).flt = s.flt := rfl
@[simp] theorem State.setB_hst (s : State) (a i : Nat) : (s.setB a i).hst = s.hst := rfl
@[simp] theorem State.setB_pwr (s : State) (a i : Nat) : (s.setB a i).pwr = s.pwr := rfl
@[simp] theorem State.setB_clk (s : State) (a i : Nat) : (s.setB a i).clk = s.clk := rfl
@[simp] theorem State.setB_str (s : State) (a i : Nat) : (s.setB a i).str = s.str := rfl
@[simp] theorem State.setB_mcs (s : State) (a i : Nat) : (s.setB a i).mcs = s.mcs := rfl
@[simp] theorem State.setB_banks (s : State) (a i : Nat) : (s.setB a i).banks = s.banks := rfl
@[simp] theorem State.setB_flk (s : State) (a i : Nat) : (s.setB a i).flk = s.flk := rfl
@[simp] theorem State.setB_bea (s : State) (a i : Nat) : (s.setB a i).bea = s.bea := rfl
@[simp] theorem State.setB_gov (s : State) (a i : Nat) : (s.setB a i).gov = s.gov := rfl
@[simp] theorem State.setB_olc (s : State) (a i : Nat) : (s.setB a i).olc = s.olc := rfl
@[simp] theorem State.setB_bcn (s : State) (a i : Nat) : (s.setB a i).bcn = s.bcn := rfl
@[simp] theorem State.setB_chn (s : State) (a i : Nat) : (s.setB a i).chn = s.chn := rfl
@[simp] theorem State.setB_dbg (s : State) (a i : Nat) : (s.setB a i).dbg = s.dbg := rfl
@[simp] theorem State.setB_free (s : State) (a i : Nat) : (s.setB a i).free = s.free := rfl

/-! ### bump -/

@[simp] theorem State.bump_pending (s : State) (a hi lo : Nat) : (s.bump a hi lo).pending = s.pending := rfl
@[simp] theorem State.bump_mem (s : State) (a hi lo : Nat) : (s.bump a hi lo).mem = s.mem := rfl
@[simp] theorem State.bump_core (s : State) (a hi lo : Nat) : (s.bump a hi lo).core = s.core := rfl
@[simp] theorem State.bump_car (s : State) (a hi lo : Nat) : (s.bump a hi lo).car = s.car := rfl
@[simp] theorem State.bump_scn (s : State) (a hi lo : Nat) : (s.bump a hi lo).scn = s.scn := rfl
@[simp] theorem State.bump_log (s : State) (a hi lo : Nat) : (s.bump a hi lo).log = s.log := rfl
@[simp] theorem State.bump_flt (s : State) (a hi lo : Nat) : (s.bump a hi lo).flt = s.flt := rfl
@[simp] theorem State.bump_hst (s : State) (a hi lo : Nat) : (s.bump a hi lo).hst = s.hst := rfl
@[simp] theorem State.bump_pwr (s : State) (a hi lo : Nat) : (s.bump a hi lo).pwr = s.pwr := rfl
@[simp] theorem State.bump_clk (s : State) (a hi lo : Nat) : (s.bump a hi lo).clk = s.clk := rfl
@[simp] theorem State.bump_str (s : State) (a hi lo : Nat) : (s.bump a hi lo).str = s.str := rfl
@[simp] theorem State.bump_mcs (s : State) (a hi lo : Nat) : (s.bump a hi lo).mcs = s.mcs := rfl
@[simp] theorem State.bump_banks (s : State) (a hi lo : Nat) : (s.bump a hi lo).banks = s.banks := rfl
@[simp] theorem State.bump_flk (s : State) (a hi lo : Nat) : (s.bump a hi lo).flk = s.flk := rfl
@[simp] theorem State.bump_bea (s : State) (a hi lo : Nat) : (s.bump a hi lo).bea = s.bea := rfl
@[simp] theorem State.bump_gov (s : State) (a hi lo : Nat) : (s.bump a hi lo).gov = s.gov := rfl
@[simp] theorem State.bump_olc (s : State) (a hi lo : Nat) : (s.bump a hi lo).olc = s.olc := rfl
@[simp] theorem State.bump_bcn (s : State) (a hi lo : Nat) : (s.bump a hi lo).bcn = s.bcn := rfl
@[simp] theorem State.bump_chn (s : State) (a hi lo : Nat) : (s.bump a hi lo).chn = s.chn := rfl
@[simp] theorem State.bump_dbg (s : State) (a hi lo : Nat) : (s.bump a hi lo).dbg = s.dbg := rfl
@[simp] theorem State.bump_free (s : State) (a hi lo : Nat) : (s.bump a hi lo).free = s.free := rfl

/-! ### count -/

@[simp] theorem State.count_pending (s : State) (a : Nat) : (s.count a).pending = s.pending := rfl
@[simp] theorem State.count_mem (s : State) (a : Nat) : (s.count a).mem = s.mem := rfl
@[simp] theorem State.count_core (s : State) (a : Nat) : (s.count a).core = s.core := rfl
@[simp] theorem State.count_car (s : State) (a : Nat) : (s.count a).car = s.car := rfl
@[simp] theorem State.count_scn (s : State) (a : Nat) : (s.count a).scn = s.scn := rfl
@[simp] theorem State.count_log (s : State) (a : Nat) : (s.count a).log = s.log := rfl
@[simp] theorem State.count_flt (s : State) (a : Nat) : (s.count a).flt = s.flt := rfl
@[simp] theorem State.count_hst (s : State) (a : Nat) : (s.count a).hst = s.hst := rfl
@[simp] theorem State.count_pwr (s : State) (a : Nat) : (s.count a).pwr = s.pwr := rfl
@[simp] theorem State.count_clk (s : State) (a : Nat) : (s.count a).clk = s.clk := rfl
@[simp] theorem State.count_str (s : State) (a : Nat) : (s.count a).str = s.str := rfl
@[simp] theorem State.count_mcs (s : State) (a : Nat) : (s.count a).mcs = s.mcs := rfl
@[simp] theorem State.count_banks (s : State) (a : Nat) : (s.count a).banks = s.banks := rfl
@[simp] theorem State.count_flk (s : State) (a : Nat) : (s.count a).flk = s.flk := rfl
@[simp] theorem State.count_bea (s : State) (a : Nat) : (s.count a).bea = s.bea := rfl
@[simp] theorem State.count_gov (s : State) (a : Nat) : (s.count a).gov = s.gov := rfl
@[simp] theorem State.count_olc (s : State) (a : Nat) : (s.count a).olc = s.olc := rfl
@[simp] theorem State.count_bcn (s : State) (a : Nat) : (s.count a).bcn = s.bcn := rfl
@[simp] theorem State.count_chn (s : State) (a : Nat) : (s.count a).chn = s.chn := rfl
@[simp] theorem State.count_dbg (s : State) (a : Nat) : (s.count a).dbg = s.dbg := rfl
@[simp] theorem State.count_free (s : State) (a : Nat) : (s.count a).free = s.free := rfl

/-! ### setCtx -/

@[simp] theorem State.setCtx_pending (s : State) (n : Nat) (c : Ctx) : (s.setCtx n c).pending = s.pending := rfl
@[simp] theorem State.setCtx_mem (s : State) (n : Nat) (c : Ctx) : (s.setCtx n c).mem = s.mem := rfl
@[simp] theorem State.setCtx_regs (s : State) (n : Nat) (c : Ctx) : (s.setCtx n c).regs = s.regs := rfl
@[simp] theorem State.setCtx_core (s : State) (n : Nat) (c : Ctx) : (s.setCtx n c).core = s.core := rfl
@[simp] theorem State.setCtx_scn (s : State) (n : Nat) (c : Ctx) : (s.setCtx n c).scn = s.scn := rfl
@[simp] theorem State.setCtx_log (s : State) (n : Nat) (c : Ctx) : (s.setCtx n c).log = s.log := rfl
@[simp] theorem State.setCtx_flt (s : State) (n : Nat) (c : Ctx) : (s.setCtx n c).flt = s.flt := rfl
@[simp] theorem State.setCtx_hst (s : State) (n : Nat) (c : Ctx) : (s.setCtx n c).hst = s.hst := rfl
@[simp] theorem State.setCtx_pwr (s : State) (n : Nat) (c : Ctx) : (s.setCtx n c).pwr = s.pwr := rfl
@[simp] theorem State.setCtx_clk (s : State) (n : Nat) (c : Ctx) : (s.setCtx n c).clk = s.clk := rfl
@[simp] theorem State.setCtx_str (s : State) (n : Nat) (c : Ctx) : (s.setCtx n c).str = s.str := rfl
@[simp] theorem State.setCtx_mcs (s : State) (n : Nat) (c : Ctx) : (s.setCtx n c).mcs = s.mcs := rfl
@[simp] theorem State.setCtx_banks (s : State) (n : Nat) (c : Ctx) : (s.setCtx n c).banks = s.banks := rfl
@[simp] theorem State.setCtx_flk (s : State) (n : Nat) (c : Ctx) : (s.setCtx n c).flk = s.flk := rfl
@[simp] theorem State.setCtx_bea (s : State) (n : Nat) (c : Ctx) : (s.setCtx n c).bea = s.bea := rfl
@[simp] theorem State.setCtx_gov (s : State) (n : Nat) (c : Ctx) : (s.setCtx n c).gov = s.gov := rfl
@[simp] theorem State.setCtx_olc (s : State) (n : Nat) (c : Ctx) : (s.setCtx n c).olc = s.olc := rfl
@[simp] theorem State.setCtx_bcn (s : State) (n : Nat) (c : Ctx) : (s.setCtx n c).bcn = s.bcn := rfl
@[simp] theorem State.setCtx_chn (s : State) (n : Nat) (c : Ctx) : (s.setCtx n c).chn = s.chn := rfl
@[simp] theorem State.setCtx_dbg (s : State) (n : Nat) (c : Ctx) : (s.setCtx n c).dbg = s.dbg := rfl
@[simp] theorem State.setCtx_free (s : State) (n : Nat) (c : Ctx) : (s.setCtx n c).free = s.free := rfl

/-! ### updCtx -/

@[simp] theorem State.updCtx_pending (s : State) (n : Nat) (g : Ctx → Ctx) : (s.updCtx n g).pending = s.pending := rfl
@[simp] theorem State.updCtx_mem (s : State) (n : Nat) (g : Ctx → Ctx) : (s.updCtx n g).mem = s.mem := rfl
@[simp] theorem State.updCtx_regs (s : State) (n : Nat) (g : Ctx → Ctx) : (s.updCtx n g).regs = s.regs := rfl
@[simp] theorem State.updCtx_core (s : State) (n : Nat) (g : Ctx → Ctx) : (s.updCtx n g).core = s.core := rfl
@[simp] theorem State.updCtx_scn (s : State) (n : Nat) (g : Ctx → Ctx) : (s.updCtx n g).scn = s.scn := rfl
@[simp] theorem State.updCtx_log (s : State) (n : Nat) (g : Ctx → Ctx) : (s.updCtx n g).log = s.log := rfl
@[simp] theorem State.updCtx_flt (s : State) (n : Nat) (g : Ctx → Ctx) : (s.updCtx n g).flt = s.flt := rfl
@[simp] theorem State.updCtx_hst (s : State) (n : Nat) (g : Ctx → Ctx) : (s.updCtx n g).hst = s.hst := rfl
@[simp] theorem State.updCtx_pwr (s : State) (n : Nat) (g : Ctx → Ctx) : (s.updCtx n g).pwr = s.pwr := rfl
@[simp] theorem State.updCtx_clk (s : State) (n : Nat) (g : Ctx → Ctx) : (s.updCtx n g).clk = s.clk := rfl
@[simp] theorem State.updCtx_str (s : State) (n : Nat) (g : Ctx → Ctx) : (s.updCtx n g).str = s.str := rfl
@[simp] theorem State.updCtx_mcs (s : State) (n : Nat) (g : Ctx → Ctx) : (s.updCtx n g).mcs = s.mcs := rfl
@[simp] theorem State.updCtx_banks (s : State) (n : Nat) (g : Ctx → Ctx) : (s.updCtx n g).banks = s.banks := rfl
@[simp] theorem State.updCtx_flk (s : State) (n : Nat) (g : Ctx → Ctx) : (s.updCtx n g).flk = s.flk := rfl
@[simp] theorem State.updCtx_bea (s : State) (n : Nat) (g : Ctx → Ctx) : (s.updCtx n g).bea = s.bea := rfl
@[simp] theorem State.updCtx_gov (s : State) (n : Nat) (g : Ctx → Ctx) : (s.updCtx n g).gov = s.gov := rfl
@[simp] theorem State.updCtx_olc (s : State) (n : Nat) (g : Ctx → Ctx) : (s.updCtx n g).olc = s.olc := rfl
@[simp] theorem State.updCtx_bcn (s : State) (n : Nat) (g : Ctx → Ctx) : (s.updCtx n g).bcn = s.bcn := rfl
@[simp] theorem State.updCtx_chn (s : State) (n : Nat) (g : Ctx → Ctx) : (s.updCtx n g).chn = s.chn := rfl
@[simp] theorem State.updCtx_dbg (s : State) (n : Nat) (g : Ctx → Ctx) : (s.updCtx n g).dbg = s.dbg := rfl
@[simp] theorem State.updCtx_free (s : State) (n : Nat) (g : Ctx → Ctx) : (s.updCtx n g).free = s.free := rfl

/-! ### setDom -/

@[simp] theorem State.setDom_pending (s : State) (n : Nat) (d : Dom) : (s.setDom n d).pending = s.pending := rfl
@[simp] theorem State.setDom_mem (s : State) (n : Nat) (d : Dom) : (s.setDom n d).mem = s.mem := rfl
@[simp] theorem State.setDom_regs (s : State) (n : Nat) (d : Dom) : (s.setDom n d).regs = s.regs := rfl
@[simp] theorem State.setDom_core (s : State) (n : Nat) (d : Dom) : (s.setDom n d).core = s.core := rfl
@[simp] theorem State.setDom_car (s : State) (n : Nat) (d : Dom) : (s.setDom n d).car = s.car := rfl
@[simp] theorem State.setDom_scn (s : State) (n : Nat) (d : Dom) : (s.setDom n d).scn = s.scn := rfl
@[simp] theorem State.setDom_log (s : State) (n : Nat) (d : Dom) : (s.setDom n d).log = s.log := rfl
@[simp] theorem State.setDom_flt (s : State) (n : Nat) (d : Dom) : (s.setDom n d).flt = s.flt := rfl
@[simp] theorem State.setDom_hst (s : State) (n : Nat) (d : Dom) : (s.setDom n d).hst = s.hst := rfl
@[simp] theorem State.setDom_clk (s : State) (n : Nat) (d : Dom) : (s.setDom n d).clk = s.clk := rfl
@[simp] theorem State.setDom_str (s : State) (n : Nat) (d : Dom) : (s.setDom n d).str = s.str := rfl
@[simp] theorem State.setDom_mcs (s : State) (n : Nat) (d : Dom) : (s.setDom n d).mcs = s.mcs := rfl
@[simp] theorem State.setDom_banks (s : State) (n : Nat) (d : Dom) : (s.setDom n d).banks = s.banks := rfl
@[simp] theorem State.setDom_flk (s : State) (n : Nat) (d : Dom) : (s.setDom n d).flk = s.flk := rfl
@[simp] theorem State.setDom_bea (s : State) (n : Nat) (d : Dom) : (s.setDom n d).bea = s.bea := rfl
@[simp] theorem State.setDom_gov (s : State) (n : Nat) (d : Dom) : (s.setDom n d).gov = s.gov := rfl
@[simp] theorem State.setDom_olc (s : State) (n : Nat) (d : Dom) : (s.setDom n d).olc = s.olc := rfl
@[simp] theorem State.setDom_bcn (s : State) (n : Nat) (d : Dom) : (s.setDom n d).bcn = s.bcn := rfl
@[simp] theorem State.setDom_chn (s : State) (n : Nat) (d : Dom) : (s.setDom n d).chn = s.chn := rfl
@[simp] theorem State.setDom_dbg (s : State) (n : Nat) (d : Dom) : (s.setDom n d).dbg = s.dbg := rfl
@[simp] theorem State.setDom_free (s : State) (n : Nat) (d : Dom) : (s.setDom n d).free = s.free := rfl

/-! ### setSlot -/

@[simp] theorem State.setSlot_pending (s : State) (n : Nat) (x : SlotSt) : (s.setSlot n x).pending = s.pending := rfl
@[simp] theorem State.setSlot_mem (s : State) (n : Nat) (x : SlotSt) : (s.setSlot n x).mem = s.mem := rfl
@[simp] theorem State.setSlot_regs (s : State) (n : Nat) (x : SlotSt) : (s.setSlot n x).regs = s.regs := rfl
@[simp] theorem State.setSlot_core (s : State) (n : Nat) (x : SlotSt) : (s.setSlot n x).core = s.core := rfl
@[simp] theorem State.setSlot_car (s : State) (n : Nat) (x : SlotSt) : (s.setSlot n x).car = s.car := rfl
@[simp] theorem State.setSlot_scn (s : State) (n : Nat) (x : SlotSt) : (s.setSlot n x).scn = s.scn := rfl
@[simp] theorem State.setSlot_log (s : State) (n : Nat) (x : SlotSt) : (s.setSlot n x).log = s.log := rfl
@[simp] theorem State.setSlot_flt (s : State) (n : Nat) (x : SlotSt) : (s.setSlot n x).flt = s.flt := rfl
@[simp] theorem State.setSlot_pwr (s : State) (n : Nat) (x : SlotSt) : (s.setSlot n x).pwr = s.pwr := rfl
@[simp] theorem State.setSlot_clk (s : State) (n : Nat) (x : SlotSt) : (s.setSlot n x).clk = s.clk := rfl
@[simp] theorem State.setSlot_str (s : State) (n : Nat) (x : SlotSt) : (s.setSlot n x).str = s.str := rfl
@[simp] theorem State.setSlot_mcs (s : State) (n : Nat) (x : SlotSt) : (s.setSlot n x).mcs = s.mcs := rfl
@[simp] theorem State.setSlot_banks (s : State) (n : Nat) (x : SlotSt) : (s.setSlot n x).banks = s.banks := rfl
@[simp] theorem State.setSlot_flk (s : State) (n : Nat) (x : SlotSt) : (s.setSlot n x).flk = s.flk := rfl
@[simp] theorem State.setSlot_bea (s : State) (n : Nat) (x : SlotSt) : (s.setSlot n x).bea = s.bea := rfl
@[simp] theorem State.setSlot_gov (s : State) (n : Nat) (x : SlotSt) : (s.setSlot n x).gov = s.gov := rfl
@[simp] theorem State.setSlot_olc (s : State) (n : Nat) (x : SlotSt) : (s.setSlot n x).olc = s.olc := rfl
@[simp] theorem State.setSlot_bcn (s : State) (n : Nat) (x : SlotSt) : (s.setSlot n x).bcn = s.bcn := rfl
@[simp] theorem State.setSlot_chn (s : State) (n : Nat) (x : SlotSt) : (s.setSlot n x).chn = s.chn := rfl
@[simp] theorem State.setSlot_dbg (s : State) (n : Nat) (x : SlotSt) : (s.setSlot n x).dbg = s.dbg := rfl
@[simp] theorem State.setSlot_free (s : State) (n : Nat) (x : SlotSt) : (s.setSlot n x).free = s.free := rfl

/-! ### setStn -/

@[simp] theorem State.setStn_pending (s : State) (k : Nat) (x : Option Stn) : (s.setStn k x).pending = s.pending := rfl
@[simp] theorem State.setStn_mem (s : State) (k : Nat) (x : Option Stn) : (s.setStn k x).mem = s.mem := rfl
@[simp] theorem State.setStn_regs (s : State) (k : Nat) (x : Option Stn) : (s.setStn k x).regs = s.regs := rfl
@[simp] theorem State.setStn_core (s : State) (k : Nat) (x : Option Stn) : (s.setStn k x).core = s.core := rfl
@[simp] theorem State.setStn_car (s : State) (k : Nat) (x : Option Stn) : (s.setStn k x).car = s.car := rfl
@[simp] theorem State.setStn_scn (s : State) (k : Nat) (x : Option Stn) : (s.setStn k x).scn = s.scn := rfl
@[simp] theorem State.setStn_log (s : State) (k : Nat) (x : Option Stn) : (s.setStn k x).log = s.log := rfl
@[simp] theorem State.setStn_flt (s : State) (k : Nat) (x : Option Stn) : (s.setStn k x).flt = s.flt := rfl
@[simp] theorem State.setStn_hst (s : State) (k : Nat) (x : Option Stn) : (s.setStn k x).hst = s.hst := rfl
@[simp] theorem State.setStn_pwr (s : State) (k : Nat) (x : Option Stn) : (s.setStn k x).pwr = s.pwr := rfl
@[simp] theorem State.setStn_clk (s : State) (k : Nat) (x : Option Stn) : (s.setStn k x).clk = s.clk := rfl
@[simp] theorem State.setStn_str (s : State) (k : Nat) (x : Option Stn) : (s.setStn k x).str = s.str := rfl
@[simp] theorem State.setStn_mcs (s : State) (k : Nat) (x : Option Stn) : (s.setStn k x).mcs = s.mcs := rfl
@[simp] theorem State.setStn_banks (s : State) (k : Nat) (x : Option Stn) : (s.setStn k x).banks = s.banks := rfl
@[simp] theorem State.setStn_bea (s : State) (k : Nat) (x : Option Stn) : (s.setStn k x).bea = s.bea := rfl
@[simp] theorem State.setStn_gov (s : State) (k : Nat) (x : Option Stn) : (s.setStn k x).gov = s.gov := rfl
@[simp] theorem State.setStn_olc (s : State) (k : Nat) (x : Option Stn) : (s.setStn k x).olc = s.olc := rfl
@[simp] theorem State.setStn_bcn (s : State) (k : Nat) (x : Option Stn) : (s.setStn k x).bcn = s.bcn := rfl
@[simp] theorem State.setStn_chn (s : State) (k : Nat) (x : Option Stn) : (s.setStn k x).chn = s.chn := rfl
@[simp] theorem State.setStn_dbg (s : State) (k : Nat) (x : Option Stn) : (s.setStn k x).dbg = s.dbg := rfl
@[simp] theorem State.setStn_free (s : State) (k : Nat) (x : Option Stn) : (s.setStn k x).free = s.free := rfl

/-! ### setLink -/

@[simp] theorem State.setLink_pending (s : State) (n : Nat) (x : Link) : (s.setLink n x).pending = s.pending := rfl
@[simp] theorem State.setLink_mem (s : State) (n : Nat) (x : Link) : (s.setLink n x).mem = s.mem := rfl
@[simp] theorem State.setLink_regs (s : State) (n : Nat) (x : Link) : (s.setLink n x).regs = s.regs := rfl
@[simp] theorem State.setLink_core (s : State) (n : Nat) (x : Link) : (s.setLink n x).core = s.core := rfl
@[simp] theorem State.setLink_car (s : State) (n : Nat) (x : Link) : (s.setLink n x).car = s.car := rfl
@[simp] theorem State.setLink_scn (s : State) (n : Nat) (x : Link) : (s.setLink n x).scn = s.scn := rfl
@[simp] theorem State.setLink_log (s : State) (n : Nat) (x : Link) : (s.setLink n x).log = s.log := rfl
@[simp] theorem State.setLink_flt (s : State) (n : Nat) (x : Link) : (s.setLink n x).flt = s.flt := rfl
@[simp] theorem State.setLink_hst (s : State) (n : Nat) (x : Link) : (s.setLink n x).hst = s.hst := rfl
@[simp] theorem State.setLink_pwr (s : State) (n : Nat) (x : Link) : (s.setLink n x).pwr = s.pwr := rfl
@[simp] theorem State.setLink_clk (s : State) (n : Nat) (x : Link) : (s.setLink n x).clk = s.clk := rfl
@[simp] theorem State.setLink_str (s : State) (n : Nat) (x : Link) : (s.setLink n x).str = s.str := rfl
@[simp] theorem State.setLink_mcs (s : State) (n : Nat) (x : Link) : (s.setLink n x).mcs = s.mcs := rfl
@[simp] theorem State.setLink_banks (s : State) (n : Nat) (x : Link) : (s.setLink n x).banks = s.banks := rfl
@[simp] theorem State.setLink_bea (s : State) (n : Nat) (x : Link) : (s.setLink n x).bea = s.bea := rfl
@[simp] theorem State.setLink_gov (s : State) (n : Nat) (x : Link) : (s.setLink n x).gov = s.gov := rfl
@[simp] theorem State.setLink_olc (s : State) (n : Nat) (x : Link) : (s.setLink n x).olc = s.olc := rfl
@[simp] theorem State.setLink_bcn (s : State) (n : Nat) (x : Link) : (s.setLink n x).bcn = s.bcn := rfl
@[simp] theorem State.setLink_chn (s : State) (n : Nat) (x : Link) : (s.setLink n x).chn = s.chn := rfl
@[simp] theorem State.setLink_dbg (s : State) (n : Nat) (x : Link) : (s.setLink n x).dbg = s.dbg := rfl
@[simp] theorem State.setLink_free (s : State) (n : Nat) (x : Link) : (s.setLink n x).free = s.free := rfl

/-! ### setEcc -/

@[simp] theorem State.setEcc_pending (s : State) (a : Nat) (e : EccErr) : (s.setEcc a e).pending = s.pending := rfl
@[simp] theorem State.setEcc_mem (s : State) (a : Nat) (e : EccErr) : (s.setEcc a e).mem = s.mem := rfl
@[simp] theorem State.setEcc_regs (s : State) (a : Nat) (e : EccErr) : (s.setEcc a e).regs = s.regs := rfl
@[simp] theorem State.setEcc_core (s : State) (a : Nat) (e : EccErr) : (s.setEcc a e).core = s.core := rfl
@[simp] theorem State.setEcc_car (s : State) (a : Nat) (e : EccErr) : (s.setEcc a e).car = s.car := rfl
@[simp] theorem State.setEcc_scn (s : State) (a : Nat) (e : EccErr) : (s.setEcc a e).scn = s.scn := rfl
@[simp] theorem State.setEcc_log (s : State) (a : Nat) (e : EccErr) : (s.setEcc a e).log = s.log := rfl
@[simp] theorem State.setEcc_flt (s : State) (a : Nat) (e : EccErr) : (s.setEcc a e).flt = s.flt := rfl
@[simp] theorem State.setEcc_hst (s : State) (a : Nat) (e : EccErr) : (s.setEcc a e).hst = s.hst := rfl
@[simp] theorem State.setEcc_pwr (s : State) (a : Nat) (e : EccErr) : (s.setEcc a e).pwr = s.pwr := rfl
@[simp] theorem State.setEcc_clk (s : State) (a : Nat) (e : EccErr) : (s.setEcc a e).clk = s.clk := rfl
@[simp] theorem State.setEcc_str (s : State) (a : Nat) (e : EccErr) : (s.setEcc a e).str = s.str := rfl
@[simp] theorem State.setEcc_mcs (s : State) (a : Nat) (e : EccErr) : (s.setEcc a e).mcs = s.mcs := rfl
@[simp] theorem State.setEcc_flk (s : State) (a : Nat) (e : EccErr) : (s.setEcc a e).flk = s.flk := rfl
@[simp] theorem State.setEcc_bea (s : State) (a : Nat) (e : EccErr) : (s.setEcc a e).bea = s.bea := rfl
@[simp] theorem State.setEcc_gov (s : State) (a : Nat) (e : EccErr) : (s.setEcc a e).gov = s.gov := rfl
@[simp] theorem State.setEcc_olc (s : State) (a : Nat) (e : EccErr) : (s.setEcc a e).olc = s.olc := rfl
@[simp] theorem State.setEcc_bcn (s : State) (a : Nat) (e : EccErr) : (s.setEcc a e).bcn = s.bcn := rfl
@[simp] theorem State.setEcc_chn (s : State) (a : Nat) (e : EccErr) : (s.setEcc a e).chn = s.chn := rfl
@[simp] theorem State.setEcc_dbg (s : State) (a : Nat) (e : EccErr) : (s.setEcc a e).dbg = s.dbg := rfl
@[simp] theorem State.setEcc_free (s : State) (a : Nat) (e : EccErr) : (s.setEcc a e).free = s.free := rfl

/-! ### note -/

@[simp] theorem State.note_pending (s : State) (pa size : Nat) (store : Bool) (v : Word) : (s.note pa size store v).pending = s.pending := rfl
@[simp] theorem State.note_mem (s : State) (pa size : Nat) (store : Bool) (v : Word) : (s.note pa size store v).mem = s.mem := rfl
@[simp] theorem State.note_regs (s : State) (pa size : Nat) (store : Bool) (v : Word) : (s.note pa size store v).regs = s.regs := rfl
@[simp] theorem State.note_car (s : State) (pa size : Nat) (store : Bool) (v : Word) : (s.note pa size store v).car = s.car := rfl
@[simp] theorem State.note_scn (s : State) (pa size : Nat) (store : Bool) (v : Word) : (s.note pa size store v).scn = s.scn := rfl
@[simp] theorem State.note_log (s : State) (pa size : Nat) (store : Bool) (v : Word) : (s.note pa size store v).log = s.log := rfl
@[simp] theorem State.note_flt (s : State) (pa size : Nat) (store : Bool) (v : Word) : (s.note pa size store v).flt = s.flt := rfl
@[simp] theorem State.note_hst (s : State) (pa size : Nat) (store : Bool) (v : Word) : (s.note pa size store v).hst = s.hst := rfl
@[simp] theorem State.note_pwr (s : State) (pa size : Nat) (store : Bool) (v : Word) : (s.note pa size store v).pwr = s.pwr := rfl
@[simp] theorem State.note_clk (s : State) (pa size : Nat) (store : Bool) (v : Word) : (s.note pa size store v).clk = s.clk := rfl
@[simp] theorem State.note_str (s : State) (pa size : Nat) (store : Bool) (v : Word) : (s.note pa size store v).str = s.str := rfl
@[simp] theorem State.note_mcs (s : State) (pa size : Nat) (store : Bool) (v : Word) : (s.note pa size store v).mcs = s.mcs := rfl
@[simp] theorem State.note_banks (s : State) (pa size : Nat) (store : Bool) (v : Word) : (s.note pa size store v).banks = s.banks := rfl
@[simp] theorem State.note_flk (s : State) (pa size : Nat) (store : Bool) (v : Word) : (s.note pa size store v).flk = s.flk := rfl
@[simp] theorem State.note_bea (s : State) (pa size : Nat) (store : Bool) (v : Word) : (s.note pa size store v).bea = s.bea := rfl
@[simp] theorem State.note_gov (s : State) (pa size : Nat) (store : Bool) (v : Word) : (s.note pa size store v).gov = s.gov := rfl
@[simp] theorem State.note_olc (s : State) (pa size : Nat) (store : Bool) (v : Word) : (s.note pa size store v).olc = s.olc := rfl
@[simp] theorem State.note_bcn (s : State) (pa size : Nat) (store : Bool) (v : Word) : (s.note pa size store v).bcn = s.bcn := rfl
@[simp] theorem State.note_chn (s : State) (pa size : Nat) (store : Bool) (v : Word) : (s.note pa size store v).chn = s.chn := rfl
@[simp] theorem State.note_dbg (s : State) (pa size : Nat) (store : Bool) (v : Word) : (s.note pa size store v).dbg = s.dbg := rfl
@[simp] theorem State.note_free (s : State) (pa size : Nat) (store : Bool) (v : Word) : (s.note pa size store v).free = s.free := rfl

/-! ### forget -/

@[simp] theorem State.forget_pending (s : State) : (s.forget).pending = s.pending := rfl
@[simp] theorem State.forget_mem (s : State) : (s.forget).mem = s.mem := rfl
@[simp] theorem State.forget_regs (s : State) : (s.forget).regs = s.regs := rfl
@[simp] theorem State.forget_car (s : State) : (s.forget).car = s.car := rfl
@[simp] theorem State.forget_scn (s : State) : (s.forget).scn = s.scn := rfl
@[simp] theorem State.forget_log (s : State) : (s.forget).log = s.log := rfl
@[simp] theorem State.forget_flt (s : State) : (s.forget).flt = s.flt := rfl
@[simp] theorem State.forget_hst (s : State) : (s.forget).hst = s.hst := rfl
@[simp] theorem State.forget_pwr (s : State) : (s.forget).pwr = s.pwr := rfl
@[simp] theorem State.forget_clk (s : State) : (s.forget).clk = s.clk := rfl
@[simp] theorem State.forget_str (s : State) : (s.forget).str = s.str := rfl
@[simp] theorem State.forget_mcs (s : State) : (s.forget).mcs = s.mcs := rfl
@[simp] theorem State.forget_banks (s : State) : (s.forget).banks = s.banks := rfl
@[simp] theorem State.forget_flk (s : State) : (s.forget).flk = s.flk := rfl
@[simp] theorem State.forget_bea (s : State) : (s.forget).bea = s.bea := rfl
@[simp] theorem State.forget_gov (s : State) : (s.forget).gov = s.gov := rfl
@[simp] theorem State.forget_olc (s : State) : (s.forget).olc = s.olc := rfl
@[simp] theorem State.forget_bcn (s : State) : (s.forget).bcn = s.bcn := rfl
@[simp] theorem State.forget_chn (s : State) : (s.forget).chn = s.chn := rfl
@[simp] theorem State.forget_dbg (s : State) : (s.forget).dbg = s.dbg := rfl
@[simp] theorem State.forget_free (s : State) : (s.forget).free = s.free := rfl

/-! ### tickFree -/

@[simp] theorem State.tickFree_pending (s : State) : (s.tickFree).pending = s.pending := rfl
@[simp] theorem State.tickFree_mem (s : State) : (s.tickFree).mem = s.mem := rfl
@[simp] theorem State.tickFree_regs (s : State) : (s.tickFree).regs = s.regs := rfl
@[simp] theorem State.tickFree_core (s : State) : (s.tickFree).core = s.core := rfl
@[simp] theorem State.tickFree_car (s : State) : (s.tickFree).car = s.car := rfl
@[simp] theorem State.tickFree_scn (s : State) : (s.tickFree).scn = s.scn := rfl
@[simp] theorem State.tickFree_log (s : State) : (s.tickFree).log = s.log := rfl
@[simp] theorem State.tickFree_flt (s : State) : (s.tickFree).flt = s.flt := rfl
@[simp] theorem State.tickFree_hst (s : State) : (s.tickFree).hst = s.hst := rfl
@[simp] theorem State.tickFree_pwr (s : State) : (s.tickFree).pwr = s.pwr := rfl
@[simp] theorem State.tickFree_clk (s : State) : (s.tickFree).clk = s.clk := rfl
@[simp] theorem State.tickFree_str (s : State) : (s.tickFree).str = s.str := rfl
@[simp] theorem State.tickFree_mcs (s : State) : (s.tickFree).mcs = s.mcs := rfl
@[simp] theorem State.tickFree_banks (s : State) : (s.tickFree).banks = s.banks := rfl
@[simp] theorem State.tickFree_flk (s : State) : (s.tickFree).flk = s.flk := rfl
@[simp] theorem State.tickFree_bea (s : State) : (s.tickFree).bea = s.bea := rfl
@[simp] theorem State.tickFree_gov (s : State) : (s.tickFree).gov = s.gov := rfl
@[simp] theorem State.tickFree_olc (s : State) : (s.tickFree).olc = s.olc := rfl
@[simp] theorem State.tickFree_bcn (s : State) : (s.tickFree).bcn = s.bcn := rfl
@[simp] theorem State.tickFree_chn (s : State) : (s.tickFree).chn = s.chn := rfl
@[simp] theorem State.tickFree_dbg (s : State) : (s.tickFree).dbg = s.dbg := rfl

/-! ### Reads after writes -/

theorem State.reg_setReg (s : State) (a b : Nat) (v : Word) : (s.setReg a v).reg b = if b = a then v else s.reg b :=
  Map.get_set resetValue s.regs a v b
@[simp] theorem State.reg_setReg_same (s : State) (a : Nat) (v : Word) : (s.setReg a v).reg a = v :=
  Map.get_set_same resetValue s.regs a v
theorem State.ctx_setCtx (s : State) (n m : Nat) (c : Ctx) : (s.setCtx n c).ctx m = if m = n then c else s.ctx m :=
  Map.get_set (fun _ => ({} : Ctx)) s.car.ctxs n c m
@[simp] theorem State.ctx_setCtx_same (s : State) (n : Nat) (c : Ctx) : (s.setCtx n c).ctx n = c :=
  Map.get_set_same (fun _ => ({} : Ctx)) s.car.ctxs n c
theorem State.ctx_updCtx (s : State) (n m : Nat) (g : Ctx → Ctx) :
    (s.updCtx n g).ctx m = if m = n then g (s.ctx n) else s.ctx m := State.ctx_setCtx s n m _
@[simp] theorem State.ctx_updCtx_same (s : State) (n : Nat) (g : Ctx → Ctx) : (s.updCtx n g).ctx n = g (s.ctx n) :=
  State.ctx_setCtx_same s n _
@[simp] theorem State.setCtx_setCtx (s : State) (n : Nat) (c c' : Ctx) : (s.setCtx n c).setCtx n c' = s.setCtx n c' := by
  simp [State.setCtx]
@[simp] theorem State.setCtx_updCtx (s : State) (n : Nat) (c : Ctx) (g : Ctx → Ctx) :
    (s.setCtx n c).updCtx n g = s.setCtx n (g c) := by simp [State.updCtx]
@[simp] theorem State.updCtx_setCtx (s : State) (n : Nat) (c : Ctx) (g : Ctx → Ctx) :
    (s.updCtx n g).setCtx n c = s.setCtx n c := by simp [State.updCtx]
@[simp] theorem State.updCtx_updCtx (s : State) (n : Nat) (f g : Ctx → Ctx) :
    (s.updCtx n f).updCtx n g = s.setCtx n (g (f (s.ctx n))) := by simp [State.updCtx]
@[simp] theorem State.ctx_setReg (s : State) (a n : Nat) (v : Word) : (s.setReg a v).ctx n = s.ctx n := rfl
@[simp] theorem State.reg_setCtx (s : State) (n a : Nat) (c : Ctx) : (s.setCtx n c).reg a = s.reg a := rfl
@[simp] theorem State.byte_setReg (s : State) (a b : Nat) (v : Word) : (s.setReg a v).byte b = s.byte b := rfl
@[simp] theorem State.byte_setCtx (s : State) (n b : Nat) (c : Ctx) : (s.setCtx n c).byte b = s.byte b := rfl

@[simp] theorem State.running_setCtx (s : State) (n : Nat) (c : Ctx) : (s.setCtx n c).car.running = s.car.running := rfl
@[simp] theorem State.running_updCtx (s : State) (n : Nat) (g : Ctx → Ctx) :
    (s.updCtx n g).car.running = s.car.running := rfl

end Sys2Proof.Machine
end

