-- ==== Sys2Proof/Laws/Run.lean ====
section
/-! SUPPORT. What an instruction does in a steady state: its issue, its retirement, and the two together around a body. -/

namespace Sys2Proof.Machine

/-! ### What a steady state is -/

theorem State.steady_iff (s : State) (n : Nat) : s.steady n = true ↔
    s.car.running = some n ∧ s.scn.mode = .run ∧ s.scn.phase = .program ∧ s.scn.holdReq = false ∧ s.scn.directDue = false ∧ s.core.halt = .none
      ∧ s.core.held = none ∧ s.bcn.role = 0 ∧ s.bcn.resync = .none ∧ s.mcs.bad = [] ∧ s.core.badPar = []
      ∧ s.unwatched = true ∧ s.dbg.step = none ∧ (s.ctx n).plain = true ∧ s.fetchable n = true
      ∧ s.core.lantern.slot = false := by
  simp only [State.steady, Bool.and_eq_true, decide_eq_true_eq, Bool.not_eq_true']
  simp only [and_assoc]

theorem Ctx.plain_iff (c : Ctx) : c.plain = true ↔
    c.slot = .none ∧ c.lkc = 0 ∧ c.load = none ∧ c.landing = none ∧ c.chain = false ∧ c.chainLant = false
      ∧ c.vec11 = false ∧ c.vec15 = false ∧ c.vec16 = false ∧ c.vstep = 0 ∧ bit c.ctrl 7 = false ∧ c.half = none
      ∧ c.wrong = none ∧ c.vec14 = none ∧ c.yielded = false := by
  simp only [Ctx.plain, Bool.and_eq_true, decide_eq_true_eq, Bool.not_eq_true']
  simp only [and_assoc]

/-! ### Fetch -/

/-- The state after the fetch of the instruction at PC. -/
def State.fetched (s : State) (n : Nat) : State :=
  match s.fetch n with
  | .ok t => t
  | .error _ => s

/-- A fetch changes the line buffer, the instruction cache with its fills, and the count of its misses. -/
structure FetchOnly (s t : State) : Prop where
  core : ∃ l i f, t.core = { s.core with lineBuf := l, icache := i, fills := f }
  rest : ∃ r, t = { s with core := t.core, regs := r }
  regs : ∀ a, a ≠ Reg.PIP_ICMISS → t.reg a = s.reg a

theorem FetchOnly.refl (s : State) : FetchOnly s s := ⟨⟨_, _, _, rfl⟩, ⟨_, rfl⟩, fun _ _ => rfl⟩

theorem FetchOnly.trans {s t u : State} (h : FetchOnly s t) (k : FetchOnly t u) : FetchOnly s u := by
  obtain ⟨⟨l, i, f, hc⟩, ⟨r, hr⟩, hg⟩ := h
  obtain ⟨⟨l', i', f', kc⟩, ⟨r', kr⟩, kg⟩ := k
  refine ⟨⟨l', i', f', by rw [kc, hc]⟩, ⟨r', ?_⟩, fun a ha => by rw [kg a ha, hg a ha]⟩
  rw [kr, hr]

theorem State.iFill_only (s : State) (line : Nat) (seen : Option Nat) : FetchOnly s (s.iFill line seen) := by
  refine ⟨⟨_, _, _, rfl⟩, ⟨_, rfl⟩, fun a ha => ?_⟩
  show (s.count Reg.PIP_ICMISS).reg a = s.reg a
  simp only [State.count, State.bump, State.setF, State.reg_setReg, if_neg ha]

theorem State.takeLine_only (s : State) (line : Nat) (h : s.core.badPar = []) : FetchOnly s (s.takeLine line) := by
  refine ⟨⟨some line, s.core.icache, s.core.fills, ?_⟩, ⟨_, rfl⟩, fun _ _ => rfl⟩
  simp [State.takeLine, Core.heldMarks, h]

theorem State.iUse_only (s : State) (line : Nat) : FetchOnly s (s.iUse line) := ⟨⟨_, _, _, rfl⟩, ⟨_, rfl⟩, fun _ _ => rfl⟩

/-- Where no line has a parity error none is dropped. -/
theorem State.parityDrop_none (s : State) (k : CacheId) (line : Nat) (h : s.core.badPar = []) : s.parityDrop k line = s := by
  simp [State.parityDrop, h]

theorem FetchOnly.badPar {s t : State} (h : FetchOnly s t) : t.core.badPar = s.core.badPar := by
  obtain ⟨⟨_, _, _, hc⟩, _, _⟩ := h
  rw [hc]

theorem State.iAccess_only (s : State) (a : Nat) (h : s.core.badPar = []) : FetchOnly s (s.iAccess a) := by
  unfold State.iAccess
  simp only [State.parityDrop_none s _ _ h]
  split
  · exact FetchOnly.refl s
  · have : FetchOnly s (if cacheHas 256 s.core.icache (a / 32) then s.iUse (a / 32)
        else if s.filling false (a / 32) then s else s.iFill (a / 32) (some (a / 8))) := by
      split
      · exact State.iUse_only s _
      · split
        · exact FetchOnly.refl s
        · exact State.iFill_only s _ _
    exact this.trans (State.takeLine_only _ _ (this.badPar.trans h))

theorem State.iPrefetch_only (s : State) (a last : Nat) (h : s.core.badPar = []) : FetchOnly s (s.iPrefetch a last) := by
  unfold State.iPrefetch
  simp only [State.parityDrop_none s _ _ h]
  split
  · split
    · exact FetchOnly.refl s
    · exact State.iFill_only s _ _
  · exact FetchOnly.refl s

theorem State.iLookup_only (s : State) (a last : Nat) (h : s.core.badPar = []) : FetchOnly s (s.iLookup a last) := by
  unfold State.iLookup
  split
  · rw [State.parityDrop_none s _ _ h]
    exact State.takeLine_only s _ h
  · have k := State.iAccess_only s a h
    exact k.trans (State.iPrefetch_only _ a last (k.badPar.trans h))

theorem State.touch_run (s : State) (d : Nat) (h : (s.dom d).st = .run) : s.touch d = s := by simp [State.touch, h]

theorem State.serves_run (s : State) (d : Nat) (h : (s.dom d).st = .run) : s.serves d = true := by simp [State.serves, h]

theorem State.fetch_steady (s : State) (n : Nat) (h : s.fetchable n = true) (hb : s.core.badPar = []) :
    s.fetch n = .ok (s.fetched n) ∧ FetchOnly s (s.fetched n) := by
  have hf : ∃ a l, s.fetch n = .ok (s.iLookup a l) := by
    unfold State.fetchable at h
    unfold State.fetch
    cases hc : s.check (s.ctx n) 0 .fetch (s.ctx n).pc.toNat 2 2 with
    | error t => simp [hc] at h
    | ok a =>
      simp only [hc, Bool.and_eq_true, decide_eq_true_eq] at h
      have he : s.eccRead a 0 = (true, s) := by simp [State.eccRead, h.2]
      refine ⟨a, dBase ((s.ctx n).seg 0) + dLimit ((s.ctx n).seg 0), ?_⟩
      simp only [hc, State.serves_run s _ h.1, State.touch_run s _ h.1, he, Bool.not_true, Bool.false_eq_true, if_false, ite_self]
  obtain ⟨a, l, hf⟩ := hf
  have : s.fetched n = s.iLookup a l := by simp [State.fetched, hf]
  rw [this]
  exact ⟨hf, State.iLookup_only s a l hb⟩

/-! ### Issue -/

theorem FetchOnly.ctx {s t : State} (h : FetchOnly s t) (n : Nat) : t.ctx n = s.ctx n := by
  obtain ⟨_, ⟨r, hr⟩, _⟩ := h
  rw [hr]
  rfl

theorem FetchOnly.scn {s t : State} (h : FetchOnly s t) : t.scn = s.scn := by
  obtain ⟨_, ⟨r, hr⟩, _⟩ := h
  rw [hr]

theorem FetchOnly.car {s t : State} (h : FetchOnly s t) : t.car = s.car := by
  obtain ⟨_, ⟨r, hr⟩, _⟩ := h
  rw [hr]

theorem FetchOnly.mem {s t : State} (h : FetchOnly s t) : t.mem = s.mem := by
  obtain ⟨_, ⟨r, hr⟩, _⟩ := h
  rw [hr]

theorem FetchOnly.pwr {s t : State} (h : FetchOnly s t) : t.pwr = s.pwr := by
  obtain ⟨_, ⟨r, hr⟩, _⟩ := h
  rw [hr]

theorem FetchOnly.banks {s t : State} (h : FetchOnly s t) : t.banks = s.banks := by
  obtain ⟨_, ⟨r, hr⟩, _⟩ := h
  rw [hr]

theorem FetchOnly.sb {s t : State} (h : FetchOnly s t) : t.core.sb = s.core.sb := by
  obtain ⟨⟨_, _, _, hc⟩, _, _⟩ := h
  rw [hc]

theorem FetchOnly.micro {s t : State} (h : FetchOnly s t) : t.mcs = s.mcs := by
  obtain ⟨_, ⟨r, hr⟩, _⟩ := h
  rw [hr]

theorem State.routineGood_none (s : State) (n m : Nat) (h : s.mcs.bad = []) : s.routineGood n m = (true, s) := by
  simp [State.routineGood, State.stretchGood, h]

theorem State.wordsGood_none (s : State) (n m : Nat) (h : s.mcs.bad = []) : s.wordsGood n m = (true, s) := by
  have hb : ∀ b i, s.badAt b i = 0 := by intro b i; simp [State.badAt, h, Map.get]
  simp [State.wordsGood, hb]

theorem State.steady_plain (s : State) (n : Nat) (h : s.steady n = true) : (s.ctx n).plain = true :=
  ((State.steady_iff s n).1 h).2.2.2.2.2.2.2.2.2.2.2.2.2.1

/-- Whether the decoder admits an instruction in a plain native context (R145): END_SCAN belongs to context 0, ENDT to the
others. -/
def Insn.admitted (i : Insn) (n : Nat) : Bool := !(i.only0 && decide (n ≠ 0)) && !(i.not0 && decide (n = 0))

theorem State.illegal_plain (s : State) (n : Nat) (i : Insn) (h : (s.ctx n).plain = true) (hi : i.admitted n = true) :
    s.illegalReason n i = none := by
  obtain ⟨h1, h2, -, -, -, -, -, -, -, -, h3, -⟩ := (Ctx.plain_iff _).1 h
  simp only [Insn.admitted, Bool.and_eq_true, Bool.not_eq_true', Bool.and_eq_false_iff, decide_eq_false_iff_not] at hi
  simp only [State.illegalReason, State.k4, h1, h2, h3]
  obtain ⟨ha, hb⟩ := hi
  rcases ha with ha | ha <;> rcases hb with hb | hb <;> simp_all

/-- In a steady state an admitted instruction, privileged only where the context is, issues. -/
theorem State.issue_steady (s : State) (n : Nat) (i : Insn) (h : s.steady n = true) (hi : i.admitted n = true)
    (hp : i.priv = true → bit (s.ctx n).sw swPRV = true) : s.issue i = .go n (s.fetched n) := by
  obtain ⟨hr, hm, -, -, -, hh, hl, hro, -, hb, hbp, -, hst, hpl, hf, hls⟩ := (State.steady_iff s n).1 h
  obtain ⟨hfe, hfo⟩ := State.fetch_steady s n hf hbp
  have hcr : s.coreRuns = true := by simp [State.coreRuns, hm, hh, hls]
  have hrs : s.replayStalls = false := by simp [State.replayStalls, hro]
  have hil : (s.fetched n).illegalReason n i = none :=
    State.illegal_plain _ n i (by rw [hfo.ctx]; exact hpl) hi
  have hw : (s.fetched n).routineGood n ((s.fetched n).entryOf n i) = (true, s.fetched n) :=
    State.routineGood_none _ _ _ (by rw [hfo.micro]; exact hb)
  have hhf : (s.fetched n).resumeHalf n = .ok (s.fetched n) := by
    have : ((s.fetched n).ctx n).half = none := by
      rw [hfo.ctx]
      exact ((Ctx.plain_iff _).1 hpl).2.2.2.2.2.2.2.2.2.2.2.1
    simp [State.resumeHalf, this]
  have hpr : (i.priv && !bit ((s.fetched n).ctx n).sw swPRV) = false := by
    rw [hfo.ctx]
    cases hpi : i.priv
    · rfl
    · simp [hp hpi]
  simp only [State.issue, hr, hcr, hl, hrs, hfe, hw, hil, hpr, hhf]
  rfl

/-! ### Retirement -/

/-- What retirement does where nothing waits for it. -/
def State.counted (s : State) (n : Nat) : State :=
  let s := s.updCtx n fun c => c.retire 0
  { s with car := { s.car with retired := s.car.retired + 1 } }

theorem State.cmpAction_off (s : State) (k : Nat) (h : s.unwatched = true) (hk : k < 8) : s.cmpAction k = 0 := by
  have h0 : s.f (cmpReg k 0) 2 0 = 0 := by
    exact of_decide_eq_true ((List.all_eq_true.1 h) k (List.mem_range.2 hk))
  simp [State.cmpAction, h0]

theorem State.judge_quiet (pre post : State) (n : Nat) (h : pre.unwatched = true) (hv : (pre.ctx n).vec14 = none) :
    pre.judge n post = .goes post.forget := by
  have : ∀ a, pre.cmpMatches n a = [] := by
    intro a
    unfold State.cmpMatches
    split
    · rfl
    · rw [List.filterMap_eq_nil_iff]
      intro k hk
      rw [if_pos (State.cmpAction_off pre k h (List.mem_range.1 hk))]
  simp [State.judge, this, hv]

/-- A fetch changes no comparator. -/
theorem FetchOnly.unwatched {s t : State} (h : FetchOnly s t) (u : s.unwatched = true) : t.unwatched = true := by
  unfold State.unwatched at *
  rw [List.all_eq_true] at *
  intro k hk
  have hk' := List.mem_range.1 hk
  have hu : s.f (Reg.DBG_CMP + 0x10 * k) 2 0 = 0 := of_decide_eq_true (u k hk)
  have hr : t.reg (Reg.DBG_CMP + 0x10 * k) = s.reg (Reg.DBG_CMP + 0x10 * k) := h.regs _ (by
    have h1 : Reg.DBG_CMP = 0x78E040 := rfl
    have h2 : Reg.PIP_ICMISS = 0x782010 := rfl
    omega)
  refine decide_eq_true ?_
  unfold State.f at hu ⊢
  rw [hr, hu]

/-- Nothing waits for the retirement of an instruction of context n. -/
structure Calm (s : State) (n : Nat) : Prop where
  running : s.car.running = some n
  role : s.bcn.role = 0
  hold : s.scn.holdReq = false
  direct : s.scn.directDue = false
  step : s.dbg.step = none
  vec11 : (s.ctx n).vec11 = false
  vec15 : (s.ctx n).vec15 = false
  vec16 : (s.ctx n).vec16 = false
  vstep : (s.ctx n).vstep = 0

theorem Ctx.retire_vec (c : Ctx) (h : c.vstep = 0) (k : Nat) : (c.retire k).vec11 = c.vec11 ∧ (c.retire k).vec15 = c.vec15
    ∧ (c.retire k).vec16 = c.vec16 := by
  unfold Ctx.retire
  have hl : c.landOld.vec11 = c.vec11 ∧ c.landOld.vec15 = c.vec15 ∧ c.landOld.vec16 = c.vec16 ∧ c.landOld.vstep = c.vstep := by
    unfold Ctx.landOld Ctx.landAt
    split
    · dsimp only
      split <;> simp
    · simp
  obtain ⟨a, b, d, e⟩ := hl
  split <;> simp [Ctx.setLkc, a, b, d, e, h]

theorem State.retire_calm (s : State) (n : Nat) (h : Calm s n) : s.retire n 0 = s.counted n := by
  have hrep : s.replicates = false := by simp [State.replicates, h.role]
  have hs : s.sendRel = s := by simp [State.sendRel, hrep]
  have hv := Ctx.retire_vec (s.ctx n) h.vstep 0
  have hc : (s.counted n).ctx n = (s.ctx n).retire 0 :=
    State.ctx_updCtx_same s n fun c => c.retire 0
  have hd : ((s.counted n).ctx n).dueVector = none := by
    rw [hc]
    simp [Ctx.dueVector, hv.1, hv.2.1, hv.2.2, h.vec11, h.vec15, h.vec16]
  have hrun : (s.counted n).car.running = some n := h.running
  have hstep : (s.counted n).dbg.step = none := h.step
  have hend : (s.counted n).stepEnds = s.counted n := by simp [State.stepEnds, hstep]
  have htp : (s.counted n).takePending = s.counted n := by simp [State.takePending, hrun, hd]
  have hth : (s.counted n).takeHold = s.counted n := by
    have : (s.counted n).scn.holdReq = false := h.hold
    simp [State.takeHold, this]
  have hlr : (s.counted n).lateReleases = s.counted n := by
    have : (s.counted n).scn.directDue = false := h.direct
    simp [State.lateReleases, this]
  have hpe : (s.counted n).programEnd = s.counted n := by
    have hr0 : (s.counted n).bcn.role = 0 := h.role
    simp [State.programEnd, hrun, State.markCheck, hr0]
  have step : (if ((s.counted n).ctx n).slot = .none ∧ ((s.counted n).ctx n).lkc = 0 then (s.counted n).stepEnds
      else s.counted n) = s.counted n := by rw [hend, ite_self]
  have : s.retire n 0 = ((((if ((s.counted n).ctx n).slot = .none ∧ ((s.counted n).ctx n).lkc = 0 then (s.counted n).stepEnds
      else s.counted n).lateReleases).takePending).takeHold).programEnd := by
    rw [State.retire, hs]
    rfl
  rw [this, step, hlr, htp, hth, hpe]

/-- In the program phase no store stalls behind another (R19). -/
theorem State.unlessDrained_free (s t : State) (h : s.scn.phase = .program) : s.unlessDrained t = t := by
  simp [State.unlessDrained, State.drainStalls, State.imageHeld, h]

/-- An instruction whose body goes well in a steady state has its body's effect and is counted. -/
theorem State.runFlow_steady (s : State) (n : Nat) (i : Insn) (body : Nat → State → Except Trap State) (u : State)
    (h : s.steady n = true) (hi : i.admitted n = true) (hp : i.priv = true → bit (s.ctx n).sw swPRV = true)
    (hb : body n ((s.fetched n).updCtx n fun c => c.begin i.long) = .ok u) (hu : Calm u n) :
    s.runFlow i body = (u.forget).counted n := by
  obtain ⟨-, -, hph, -, -, -, -, -, -, -, hbp, hg, -, hpl, hf, -⟩ := (State.steady_iff s n).1 h
  obtain ⟨-, hfo⟩ := State.fetch_steady s n hf hbp
  obtain ⟨_, hlk, -, -, -, -, -, -, -, -, -, -, hwr, hv14, -⟩ := (Ctx.plain_iff _).1 hpl
  have hgr := hfo.unwatched hg
  have hl : ((s.fetched n).ctx n).lkc = 0 := by rw [hfo.ctx]; exact hlk
  have hv : ((s.fetched n).ctx n).vec14 = none := by rw [hfo.ctx]; exact hv14
  have ha : u.forget.afterSlot (s.fetched n) n = u.forget := by
    have : ((s.fetched n).ctx n).wrong = none := by rw [hfo.ctx]; exact hwr
    simp [State.afterSlot, this]
  simp only [State.runFlow, State.issue_steady s n i h hi hp, hb, State.judgeRetire, State.judge_quiet _ u n hgr hv, hl,
    ha, State.unlessDrained_free s _ hph]
  exact State.retire_calm u.forget n
    ⟨hu.running, hu.role, hu.hold, hu.direct, hu.step, hu.vec11, hu.vec15, hu.vec16, hu.vstep⟩

end Sys2Proof.Machine
end

