-- ==== Sys2Proof/Laws/Becomes.lean ====
section
/-! SUPPORT. What an instruction of a steady state becomes, from what its body does: the frame of its fetch, its body and
its retirement together. -/

namespace Sys2Proof.Machine

/-- The state in which an instruction's effect u is complete: nothing noted, the context behind it, the counts made. -/
def State.finished (u : State) (n : Nat) : State := (u.forget).counted n

/-- What an instruction's effect must leave for its retirement to do no more than count. -/
structure Quiet (s u : State) (n : Nat) : Prop where
  running : u.car.running = s.car.running
  role : u.bcn.role = s.bcn.role
  hold : u.scn.holdReq = s.scn.holdReq
  direct : u.scn.directDue = s.scn.directDue
  step : u.dbg.step = s.dbg.step
  vec11 : (u.ctx n).vec11 = (s.ctx n).vec11
  vec15 : (u.ctx n).vec15 = (s.ctx n).vec15
  vec16 : (u.ctx n).vec16 = (s.ctx n).vec16
  vstep : (u.ctx n).vstep = (s.ctx n).vstep

theorem FetchOnly.only {s t : State} (h : FetchOnly s t) : Only [.caches] [Reg.PIP_ICMISS] s t := by
  obtain ⟨⟨l, i, f, hc⟩, ⟨r, hr⟩, hg⟩ := h
  refine ⟨by rw [hr], fun p hp => ?_, fun a ha => hg a (by simpa using ha)⟩
  cases p <;> simp at hp <;> first | (rw [hr]; rfl) | (rw [hr, hc]; simp [Part.same])

/-- An instruction whose body places PC itself. -/
theorem becomes_flow {i : Instr} {s : State} {n : Nat} {I : Insn} {body : Nat → State → Except Trap State} {c : Ctx}
    {ps : List Part} {rs : List Nat} {P : State → Prop} (h : s.steady n = true) (hi : I.admitted n = true)
    (hp : I.priv = true → bit (s.ctx n).sw swPRV = true) (he : exec i s = .next (s.runFlow I body))
    (hb : ∀ S, FetchOnly s S → ∃ u, body n (S.setCtx n ((s.ctx n).begin I.long)) = .ok u ∧ Quiet s u n
      ∧ (u.ctx n).retire 0 = c ∧ (∀ m, m ≠ n → u.ctx m = s.ctx m)
      ∧ Only (.contexts :: .retired :: .caches :: ps) (Reg.PIP_ICMISS :: rs) s u ∧ P (u.finished n)) :
    Becomes i s n c ps rs P := by
  obtain ⟨hr, -, -, hh, hdd, -, -, hro, -, -, hbp, -, hst, hpl, hf, -⟩ := (State.steady_iff s n).1 h
  obtain ⟨h1, -, -, -, -, -, h7, h8, h9, h10, -⟩ := (Ctx.plain_iff _).1 hpl
  obtain ⟨-, hfo⟩ := State.fetch_steady s n hf hbp
  obtain ⟨u, hbu, hq, hc, hm, ho, hP⟩ := hb _ hfo
  have hcx : (s.fetched n).ctx n = s.ctx n := hfo.ctx n
  have hu := State.runFlow_steady s n I body u h hi hp (by rw [State.updCtx, hcx]; exact hbu)
    ⟨hq.running.trans hr, hq.role.trans hro, hq.hold.trans hh, hq.direct.trans hdd, hq.step.trans hst, hq.vec11.trans h7, hq.vec15.trans h8,
      hq.vec16.trans h9, hq.vstep.trans h10⟩
  refine ⟨_, he.trans (congrArg _ hu), ?_, ⟨?_, ?_⟩, hP⟩
  · show ((u.forget).updCtx n fun c => c.retire 0).ctx n = _
    rw [State.ctx_updCtx_same]; exact hc
  · obtain ⟨o1, o2, o3⟩ := ho
    refine ⟨o1, fun p hp => ?_, o3⟩
    have := o2 p hp
    cases p <;> first | exact this | (simp at hp)
  · intro m hmn
    show ((u.forget).updCtx n fun c => c.retire 0).ctx m = _
    rw [State.ctx_updCtx, if_neg hmn]; exact hm m hmn

theorem becomes_next {i : Instr} {s : State} {n : Nat} {I : Insn} {body : Nat → State → Except Trap State} {c : Ctx}
    {ps : List Part} {rs : List Nat} {P : State → Prop} (h : s.steady n = true) (hi : I.admitted n = true)
    (hp : I.priv = true → bit (s.ctx n).sw swPRV = true) (he : exec i s = .next (s.runNext I body))
    (hb : ∀ S, FetchOnly s S → ∃ u, body n (S.setCtx n ((s.ctx n).begin I.long)) = .ok u ∧ Quiet s u n
      ∧ ((u.ctx n).advance).retire 0 = c ∧ (∀ m, m ≠ n → u.ctx m = s.ctx m)
      ∧ Only (.contexts :: .retired :: .caches :: ps) (Reg.PIP_ICMISS :: rs) s u ∧ P ((u.updCtx n Ctx.advance).finished n)) :
    Becomes i s n c ps rs P := by
  refine becomes_flow h hi hp he ?_
  intro S hS
  obtain ⟨u, hbu, hq, hc, hm, ho, hP⟩ := hb S hS
  have hadv : ∀ c : Ctx, c.advance.vec11 = c.vec11 ∧ c.advance.vec15 = c.vec15 ∧ c.advance.vec16 = c.vec16 ∧ c.advance.vstep = c.vstep := by
    intro c; unfold Ctx.advance; split <;> simp
  refine ⟨u.updCtx n Ctx.advance, by simp only [hbu], ⟨hq.running, hq.role, hq.hold, hq.direct, hq.step, ?_, ?_, ?_, ?_⟩, ?_, ?_, ?_, hP⟩
  · rw [State.ctx_updCtx_same, (hadv _).1, hq.vec11]
  · rw [State.ctx_updCtx_same, (hadv _).2.1, hq.vec15]
  · rw [State.ctx_updCtx_same, (hadv _).2.2.1, hq.vec16]
  · rw [State.ctx_updCtx_same, (hadv _).2.2.2, hq.vstep]
  · rw [State.ctx_updCtx_same]; exact hc
  · intro m hmn; rw [State.ctx_updCtx, if_neg hmn]; exact hm m hmn
  · obtain ⟨o1, o2, o3⟩ := ho
    refine ⟨o1, fun p hp => ?_, o3⟩
    have := o2 p hp
    cases p <;> first | exact this | (simp at hp)

/-- Setting context n changes the contexts alone. -/
theorem FetchOnly.within {s S : State} (h : FetchOnly s S) (n : Nat) (c : Ctx) (ps : List Part) (rs : List Nat) :
    Only (.contexts :: .retired :: .caches :: ps) (Reg.PIP_ICMISS :: rs) s (S.setCtx n c) := by
  obtain ⟨o1, o2, o3⟩ := h.only
  refine ⟨o1, fun p hp => ?_, fun a ha => o3 a (by simp at ha ⊢; exact ha.1)⟩
  have := o2 p
  cases p <;> first | (simp at hp; done) | exact this (by decide)

end Sys2Proof.Machine
end

