-- ==== Sys2Proof/Laws/Bits.lean ====
section
/-! SUPPORT. Bits of a word after a bit or a field of it is set, and the flags after each flag update. -/

namespace Sys2Proof.Machine

theorem bit_setFld {n : Nat} (w : BitVec n) (hi lo v j : Nat) (hj : j < n) (h : lo ≤ hi) :
    bit (setFld w hi lo v) j = if lo ≤ j ∧ j ≤ hi then v.testBit (j - lo) else bit w j := by
  unfold bit setFld mask
  simp only [BitVec.getLsbD_or, BitVec.getLsbD_and, BitVec.getLsbD_not, BitVec.getLsbD_ofNat, hj, decide_true,
    Bool.true_and, Nat.testBit_shiftLeft, Nat.testBit_two_pow_sub_one, Nat.testBit_mod_two_pow]
  by_cases h1 : lo ≤ j
  · by_cases h2 : j ≤ hi
    · simp [h1, h2, show j - lo < hi + 1 - lo by omega]
    · simp [h1, h2, show ¬ j - lo < hi + 1 - lo by omega]
  · simp [h1]

/-- A bit after a bit is set. -/
theorem bit_setBit {n : Nat} (w : BitVec n) (i j : Nat) (b : Bool) (hj : j < n) :
    bit (setBit w i b) j = if j = i then b else bit w j := by
  unfold setBit
  rw [bit_setFld w i i b.toNat j hj (Nat.le_refl i)]
  by_cases h : j = i
  · subst h
    cases b <;> simp
  · rw [if_neg (by omega), if_neg h]

theorem bit_stick (w : Word) (i j : Nat) (b : Bool) (hj : j < 32) :
    bit (stick w i b) j = if j = i then (b || bit w j) else bit w j := by
  unfold stick
  cases b
  · by_cases h : j = i <;> simp [h]
  · simp only [if_true, bit_setBit w i j true hj, Bool.true_or]

/-- Words with equal bits are equal. -/
theorem word_ext (v w : Word) (h : ∀ j, j < 32 → bit v j = bit w j) : v = w := BitVec.eq_of_getLsbD_eq (fun j hj => h j hj)

end Sys2Proof.Machine
end

