-- ==== Sys2Proof/Laws/Memory.lean ====
section
/-! SUPPORT. The laws of the bytes and the registers: a read after a write, and the canonical form under every operation
that changes them. -/

namespace Sys2Proof.Machine

/-! ### A read after a write -/

theorem byte_mwriteBytes (s : State) (a : Nat) (bs : List Byte) (b : Nat) :
    (s.mwriteBytes a bs).byte b = if a ≤ b ∧ b < a + bs.length then bs.getD (b - a) (memDefault b) else s.byte b :=
  Map.get_setAll memDefault s.mem a bs b

theorem byte_mclear (s : State) (lo hi b : Nat) :
    (s.mclear lo hi).byte b = if lo ≤ b ∧ b ≤ hi then memDefault b else s.byte b := by
  unfold State.mclear State.byte
  rw [Map.get_drop]
  by_cases h : lo ≤ b ∧ b ≤ hi <;> simp [h]

@[simp] theorem reg_setReg_same (s : State) (a : Nat) (v : Word) : (s.setReg a v).reg a = v := Map.get_set_same _ _ _ _

theorem reg_setReg_other (s : State) (a b : Nat) (v : Word) (h : b ≠ a) : (s.setReg a v).reg b = s.reg b :=
  Map.get_set_other _ _ _ _ _ h

/-! ### The canonical form -/

theorem canonical_of_eq {s t : State} (h : s.canonical) (hm : t.mem = s.mem) (hr : t.regs = s.regs) : t.canonical := by
  unfold State.canonical at *
  rw [hm, hr]
  exact h

theorem markDirty_mem (s : State) (a n : Nat) : (s.markDirty a n).mem = s.mem ∧ (s.markDirty a n).regs = s.regs := by
  unfold State.markDirty
  split <;> exact ⟨rfl, rfl⟩

theorem canonical_markDirty (s : State) (a n : Nat) (h : s.canonical) : (s.markDirty a n).canonical :=
  canonical_of_eq h (markDirty_mem s a n).1 (markDirty_mem s a n).2

theorem canonical_mwriteBytes (s : State) (a : Nat) (bs : List Byte) (h : s.canonical) : (s.mwriteBytes a bs).canonical :=
  ⟨Map.wf_setAll _ _ _ _ h.1, by simpa [State.mwriteBytes, (markDirty_mem s a bs.length).2] using h.2⟩

theorem canonical_mwrite (s : State) (a n v : Nat) (h : s.canonical) : (s.mwrite a n v).canonical :=
  canonical_mwriteBytes s a _ h

theorem canonical_mclear (s : State) (lo hi : Nat) (h : s.canonical) : (s.mclear lo hi).canonical :=
  ⟨Map.wf_drop memDefault (fun a => decide (lo ≤ a) && decide (a ≤ hi)) s.mem h.1, by simpa [State.mclear, (markDirty_mem s lo (hi + 1 - lo)).2] using h.2⟩

theorem canonical_setReg (s : State) (a : Nat) (v : Word) (h : s.canonical) : (s.setReg a v).canonical :=
  ⟨h.1, Map.wf_set _ _ _ _ h.2⟩

theorem canonical_setF (s : State) (a hi lo v : Nat) (h : s.canonical) : (s.setF a hi lo v).canonical :=
  canonical_setReg s a _ h

theorem canonical_setB (s : State) (a i : Nat) (h : s.canonical) : (s.setB a i).canonical := canonical_setF s a i i 1 h

theorem canonical_bump (s : State) (a hi lo : Nat) (h : s.canonical) : (s.bump a hi lo).canonical := canonical_setF s a hi lo _ h

theorem canonical_count (s : State) (a : Nat) (h : s.canonical) : (s.count a).canonical := canonical_bump s a 31 0 h

theorem canonical_resetRegs (s : State) (pd : Nat) (h : s.canonical) : (s.resetRegs pd).canonical :=
  ⟨h.1, Map.wf_drop resetValue (fun a => pageDomain (pageOf a) == pd && decide (regBase ≤ a) && !heldInPd0 a) s.regs h.2⟩

theorem canonical_setCtx (s : State) (n : Nat) (c : Ctx) (h : s.canonical) : (s.setCtx n c).canonical :=
  canonical_of_eq h rfl rfl

theorem canonical_updCtx (s : State) (n : Nat) (g : Ctx → Ctx) (h : s.canonical) : (s.updCtx n g).canonical :=
  canonical_of_eq h rfl rfl

theorem canonical_setDom (s : State) (n : Nat) (d : Dom) (h : s.canonical) : (s.setDom n d).canonical :=
  canonical_of_eq h rfl rfl

/-- A fold of an operation that keeps the form keeps it. -/
theorem canonical_foldl {α : Type} (f : State → α → State) (hf : ∀ s x, s.canonical → (f s x).canonical) (l : List α)
    (s : State) (h : s.canonical) : (l.foldl f s).canonical := by
  induction l generalizing s with
  | nil => exact h
  | cons x l ih => exact ih _ (hf s x h)

/-- The memory and the registers that reset leaves have the form. -/
theorem memory_wf_reset : Memory.wf State.reset.mem = true ∧ Map.wf resetValue State.reset.regs = true := ⟨rfl, rfl⟩

end Sys2Proof.Machine
end

