-- ==== Sys2Proof/Laws/Stack.lean ====
section
/-! SUPPORT. The operand stack where its cache holds what an instruction needs and has room for what it pushes, and the
instructions that only compute. -/

namespace Sys2Proof.Machine

/-! ### The cached operand stack -/

theorem Ctx.dropTop_free (c : Ctx) (k : Nat) (h : c.landing = none) : c.dropTop k = { c with oc := c.oc.drop k } := by
  simp [Ctx.dropTop, h]

theorem State.need_cached (s : State) (n k : Nat) (c : Ctx) (h : k ≤ c.oc.length) :
    (s.setCtx n c).need n k = .ok (s.setCtx n c) := by
  simp [State.need, h]

theorem State.popN_cached (s : State) (n k : Nat) (c : Ctx) (h : k ≤ c.oc.length) (hl : c.landing = none) :
    (s.setCtx n c).popN n k = .ok (c.oc.take k, s.setCtx n { c with oc := c.oc.drop k }) := by
  simp [State.popN, State.need_cached s n k c h, Ctx.dropTop_free c k hl]

theorem State.push_cached (s : State) (n : Nat) (v : Word) (c : Ctx) (h : c.oc.length < 16) :
    (s.setCtx n c).push n v = .ok (s.setCtx n { c with oc := v :: c.oc }) := by
  simp [State.push, h]

theorem State.pushAll_cached (s : State) (n : Nat) (vs : List Word) (c : Ctx) (h : c.oc.length + vs.length ≤ 16) :
    (s.setCtx n c).pushAll n vs = .ok (s.setCtx n { c with oc := vs.reverse ++ c.oc }) := by
  induction vs generalizing c with
  | nil => rfl
  | cons v vs ih =>
    simp only [List.length_cons] at h
    simp only [State.pushAll, State.push_cached s n v c (by omega)]
    rw [ih { c with oc := v :: c.oc } (by simp only [List.length_cons]; omega)]
    simp

/-! ### Instructions that only compute -/

/-- What an instruction may replace of a context: SW, A, LA and the logic stack, IW, and the two stacks. -/
def Ctx.withData (c : Ctx) (sw : Word) (acc : BitVec 40) (la : Bool) (ls : BitVec 16) (ld iw : Nat) (oc rc : List Word) : Ctx :=
  { c with sw := sw, acc := acc, la := la, ls := ls, ldepth := ld, iwn := iw, oc := oc, rc := rc }

/-- The context that an instruction finds, in a plain context. -/
theorem Ctx.begin_plain (c : Ctx) (h : c.plain = true) (l : Bool) : c.begin l = { c with
    noMatch := false, prog := if !l && decide (fld c.prog 31 30 = 1) then 0 else c.prog } := by
  obtain ⟨-, -, h3, h4, -, -, -, -, -, -, -, -, -, -, h5⟩ := (Ctx.plain_iff _).1 h
  cases c
  simp only at h3 h4 h5
  subst h3 h4 h5
  rfl

theorem Ctx.finish (c : Ctx) (h : c.plain = true) (sw : Word) (acc : BitVec 40) (la : Bool) (ls : BitVec 16) (ld iw : Nat)
    (oc rc : List Word) :
    ((((c.begin false).withData sw acc la ls ld iw oc rc).advance).retire 0)
      = (c.withData sw acc la ls ld iw oc rc).next := by
  rw [Ctx.begin_plain c h]
  obtain ⟨h1, -, h3, h4, h5, h6, h7, h8, h9, h10, -⟩ := (Ctx.plain_iff _).1 h
  cases c
  simp only at h1 h3 h4 h5 h6 h7 h8 h9 h10
  subst h1 h3 h4 h5 h6 h7 h8 h9 h10
  simp [Ctx.advance, Ctx.retire, Ctx.landOld, Ctx.withData, Ctx.next]
  rfl

/-- An instruction whose body replaces no more than that computes. -/
theorem computes_of {i : Instr} {s : State} {n : Nat} {I : Insn} {body : Nat → State → Except Trap State}
    (sw : Word) (acc : BitVec 40) (la : Bool) (ls : BitVec 16) (ld iw : Nat) (oc rc : List Word)
    (h : s.steady n = true) (hi : I.admitted n = true) (hl : I.long = false)
    (hp : I.priv = true → bit (s.ctx n).sw swPRV = true)
    (he : exec i s = .next (s.runNext I body))
    (hb : ∀ S : State, FetchOnly s S → body n (S.setCtx n ((s.ctx n).begin false))
      = .ok (S.setCtx n (((s.ctx n).begin false).withData sw acc la ls ld iw oc rc))) :
    Computes i s n ((s.ctx n).withData sw acc la ls ld iw oc rc) := by
  obtain ⟨hr, -, -, hh, hdd, -, -, hro, -, -, hbp, -, hst, hpl, hf, -⟩ := (State.steady_iff s n).1 h
  obtain ⟨-, hfo⟩ := State.fetch_steady s n hf hbp
  have hfin := Ctx.finish (s.ctx n) hpl sw acc la ls ld iw oc rc
  generalize hc' : ((s.ctx n).begin false).withData sw acc la ls ld iw oc rc = c' at hb hfin
  have hbody := hb (s.fetched n) hfo
  obtain ⟨⟨l, ic, fi, hco⟩, ⟨r, hrest⟩, hregs⟩ := hfo
  generalize hS : s.fetched n = S at hbody hco hrest hregs
  have hrun : s.runNext I body = ((S.setCtx n c'.advance).forget).counted n := by
    have hu := State.runFlow_steady s n I (fun n s => match body n s with
      | .error t => .error t
      | .ok s => .ok (s.updCtx n Ctx.advance)) (S.setCtx n c'.advance) h hi hp
    rw [hS] at hu
    apply hu
    · have hb0 : (S.updCtx n fun c => c.begin I.long) = S.setCtx n ((s.ctx n).begin false) := by
        have : S.ctx n = s.ctx n := by rw [hrest]; rfl
        simp only [State.updCtx, this, hl]
      simp only [hb0, hbody, State.setCtx_updCtx]
    · have hadv : c'.advance.vec11 = false ∧ c'.advance.vec15 = false ∧ c'.advance.vec16 = false ∧ c'.advance.vstep = 0 := by
        obtain ⟨h1, -, -, -, -, -, h7, h8, h9, h10, -⟩ := (Ctx.plain_iff _).1 hpl
        rw [← hc']
        simp [Ctx.advance, Ctx.begin, Ctx.withData, h1, h7, h8, h9, h10]
      obtain ⟨v1, v2, v3, v4⟩ := hadv
      have hS' : S.car = s.car ∧ S.bcn = s.bcn ∧ S.scn = s.scn ∧ S.dbg = s.dbg := by rw [hrest]; simp
      refine ⟨?_, ?_, ?_, ?_, ?_, ?_, ?_, ?_, ?_⟩
      · show (S.setCtx n _).car.running = _; simp [hS'.1, hr]
      · show S.bcn.role = 0; rw [hS'.2.1]; exact hro
      · show S.scn.holdReq = false; rw [hS'.2.2.1]; exact hh
      · show S.scn.directDue = false; rw [hS'.2.2.1]; exact hdd
      · show S.dbg.step = none; rw [hS'.2.2.2]; exact hst
      all_goals simp [v1, v2, v3, v4]
  rw [hrun] at he
  refine ⟨_, he, ?_, ?_⟩
  · have : (((S.setCtx n c'.advance).forget).counted n).ctx n = c'.advance.retire 0 := by
      show (((S.setCtx n c'.advance).forget).updCtx n fun c => c.retire 0).ctx n = _
      rw [State.ctx_updCtx_same]
      show ((S.setCtx n c'.advance).ctx n).retire 0 = _
      rw [State.ctx_setCtx_same]
    rw [this, hfin]
  · have hctx : ∀ m, m ≠ n → (((S.setCtx n c'.advance).forget).counted n).ctx m = s.ctx m := by
      intro m hm
      show (((S.setCtx n c'.advance).forget).updCtx n fun c => c.retire 0).ctx m = _
      rw [State.ctx_updCtx, if_neg hm]
      show (S.setCtx n c'.advance).ctx m = _
      rw [State.ctx_setCtx, if_neg hm, hrest]
      rfl
    refine ⟨hctx, ?_, ?_, ?_, ?_, ?_, ?_, ?_⟩
    · show S.mem = s.mem; rw [hrest]
    · intro a ha; exact hregs a ha
    · show S.core.fp = _ ∧ S.core.fpsw = _ ∧ S.core.fpown = _ ∧ S.core.pin = _ ∧ S.core.fpHalf = _ ∧ S.core.fpSaved = _
      rw [hco]; exact ⟨rfl, rfl, rfl, rfl, rfl, rfl⟩
    · show S.core.sb = _ ∧ S.core.dcache = _ ∧ S.core.held = _
      rw [hco]; exact ⟨rfl, rfl, rfl⟩
    · show S.core.halt = _ ∧ S.core.bp = _ ∧ S.core.itt = _ ∧ S.core.gh = _ ∧ S.core.lantern = _
      rw [hco]; exact ⟨rfl, rfl, rfl, rfl, rfl⟩
    · have : S.car = s.car := by rw [hrest]
      rw [← this]
      rfl
    · show S.pending = _ ∧ S.scn = _ ∧ S.log = _ ∧ S.flt = _ ∧ S.hst = _ ∧ S.pwr = _ ∧ S.clk = _ ∧ S.str = _
        ∧ S.mcs = _ ∧ S.banks = _ ∧ S.flk = _ ∧ S.bea = _ ∧ S.gov = _ ∧ S.olc = _ ∧ S.bcn = _ ∧ S.chn = _ ∧ S.dbg = _
      rw [hrest]
      exact ⟨rfl, rfl, rfl, rfl, rfl, rfl, rfl, rfl, rfl, rfl, rfl, rfl, rfl, rfl, rfl, rfl, rfl⟩

/-- The data of a context. -/
theorem Ctx.withData_self (c : Ctx) : c.withData c.sw c.acc c.la c.ls c.ldepth c.iwn c.oc c.rc = c := rfl

/-- An instruction that pops k cached operands and pushes results, with a new SW, computes. -/
theorem stackOp_computes {i : Instr} {s : State} {n : Nat} {I : Insn} {k : Nat}
    {f : Ctx → List Word → Except Trap (List Word × Word)} (rs : List Word) (sw : Word)
    (h : s.steady n = true) (hi : I.admitted n = true) (hl : I.long = false)
    (hp : I.priv = true → bit (s.ctx n).sw swPRV = true) (he : exec i s = .next (s.stackOp I k f))
    (hk : k ≤ (s.ctx n).oc.length) (hr : (s.ctx n).oc.length - k + rs.length ≤ 16)
    (hf : ∀ c : Ctx, c.sw = (s.ctx n).sw → c.acc = (s.ctx n).acc → f c ((s.ctx n).oc.take k) = .ok (rs, sw)) :
    Computes i s n { s.ctx n with oc := rs.reverse ++ (s.ctx n).oc.drop k, sw := sw } := by
  have hpl := State.steady_plain s n h
  obtain ⟨-, -, h3, -⟩ := (Ctx.plain_iff _).1 hpl
  have := computes_of (i := i) (s := s) (n := n) (I := I) (body := _) sw (s.ctx n).acc (s.ctx n).la (s.ctx n).ls
    (s.ctx n).ldepth (s.ctx n).iwn (rs.reverse ++ (s.ctx n).oc.drop k) (s.ctx n).rc h hi hl hp he ?_
  · exact this
  · intro S _
    rw [State.popN_cached S n k _ (by exact hk) (by exact h3)]
    simp only [State.ctx_setCtx_same]
    have hf' := hf { (s.ctx n).begin false with oc := ((s.ctx n).begin false).oc.drop k } rfl rfl
    have hoc : ((s.ctx n).begin false).oc = (s.ctx n).oc := rfl
    rw [hoc] at hf' ⊢
    rw [hf']
    simp only []
    rw [State.pushAll_cached S n rs _ (by simp only [List.length_drop]; omega)]
    simp only [State.setCtx_updCtx]
    rfl

/-- An instruction that pushes a word into a cache with room computes. -/
theorem pushOp_computes {i : Instr} {s : State} {n : Nat} {I : Insn} {f : Nat → State → Word} (v : Word)
    (h : s.steady n = true) (hi : I.admitted n = true) (hl : I.long = false) (hp : I.priv = false)
    (he : exec i s = .next (s.pushOp I f)) (hlen : (s.ctx n).oc.length < 16)
    (hf : ∀ S : State, FetchOnly s S → f n (S.setCtx n ((s.ctx n).begin false)) = v) :
    Computes i s n { s.ctx n with oc := v :: (s.ctx n).oc } := by
  have := computes_of (i := i) (s := s) (n := n) (I := I) (body := _) (s.ctx n).sw (s.ctx n).acc (s.ctx n).la (s.ctx n).ls
    (s.ctx n).ldepth (s.ctx n).iwn (v :: (s.ctx n).oc) (s.ctx n).rc h hi hl (by simp [hp]) he ?_
  · exact this
  · intro S hS
    rw [hf S hS, State.push_cached S n v _ (by exact hlen)]
    rfl

theorem binOp_computes {i : Instr} {s : State} {n : Nat} {I : Insn} {f : Word → Word → Word → Word × Word} (a b : Word)
    (rest : List Word) (h : s.steady n = true) (hi : I.admitted n = true) (hl : I.long = false) (hp : I.priv = false)
    (he : exec i s = .next (s.binOp I f)) (hoc : (s.ctx n).oc = b :: a :: rest) (hlen : (s.ctx n).oc.length ≤ 16) :
    Computes i s n { s.ctx n with oc := (f (s.ctx n).sw a b).1 :: rest, sw := (f (s.ctx n).sw a b).2 } := by
  have := stackOp_computes (i := i) (s := s) (n := n) (I := I) (k := 2) (f := _) [(f (s.ctx n).sw a b).1]
    (f (s.ctx n).sw a b).2 h hi hl (by simp [hp]) he (by simp [hoc]) (by simp [hoc] at hlen ⊢; omega) ?_
  · simpa [hoc] using this
  · intro c hc _
    simp [hc, hoc]

theorem unOp_computes {i : Instr} {s : State} {n : Nat} {I : Insn} {f : Word → Word → Word × Word} (a : Word)
    (rest : List Word) (h : s.steady n = true) (hi : I.admitted n = true) (hl : I.long = false) (hp : I.priv = false)
    (he : exec i s = .next (s.unOp I f)) (hoc : (s.ctx n).oc = a :: rest) (hlen : (s.ctx n).oc.length ≤ 16) :
    Computes i s n { s.ctx n with oc := (f (s.ctx n).sw a).1 :: rest, sw := (f (s.ctx n).sw a).2 } := by
  have := stackOp_computes (i := i) (s := s) (n := n) (I := I) (k := 1) (f := _) [(f (s.ctx n).sw a).1]
    (f (s.ctx n).sw a).2 h hi hl (by simp [hp]) he (by simp [hoc]) (by simp [hoc] at hlen ⊢; omega) ?_
  · simpa [hoc] using this
  · intro c hc _
    simp [hc, hoc]

end Sys2Proof.Machine
end

