-- ==== Sys2Proof/Laws/Results.lean ====
section
/-! SUPPORT. The flags that the model's flag functions leave, in the terms of Safety/Results, and the instructions that
compute on the cached stack. -/

namespace Sys2Proof.Machine

open Sys2Proof.Claims

theorem bit31 (r : Word) : bit r 31 = decide (r.toInt < 0) := by
  unfold bit; rw [← BitVec.msb_eq_getLsbD_last r, BitVec.msb_eq_toInt]

theorem bit_setZN (sw r : Word) (j : Nat) (hj : j < 32) :
    bit (setZN sw r) j = if j = 1 then decide (r = 0) else if j = 2 then decide (r.toInt < 0) else bit sw j := by
  simp only [setZN, bit_setBit _ _ _ _ hj, bit31]
  split
  · subst j; simp
  · rfl

theorem logic_hold (sw r : Word) : (zn r).hold sw (setZN sw r) := by
  refine ⟨?_, ?_, ?_, ?_, ?_, ?_, fun j h1 h2 => ?_⟩
  case refine_7 => rw [bit_setZN _ _ _ h2]; simp [show j ≠ 1 by omega, show j ≠ 2 by omega]
  all_goals rw [bit_setZN _ _ _ (by omega)]; simp [zn, swC, swV]

theorem shift_hold (sw r : Word) (c : Bool) : ({ zn r with c := some c } : Flags).hold sw (setBit (setZN sw r) swC c) := by
  refine ⟨?_, ?_, ?_, ?_, ?_, ?_, fun j h1 h2 => ?_⟩
  case refine_7 => rw [bit_setBit _ _ _ _ h2, bit_setZN _ _ _ h2]; simp [show j ≠ 1 by omega, show j ≠ 2 by omega, swC, swV]; omega
  all_goals rw [bit_setBit _ _ _ _ (by omega), bit_setZN _ _ _ (by omega)]; simp [zn, swC, swV]

theorem v_hold (sw r : Word) (v : Bool) : ({ zn r with v := some v } : Flags).hold sw (setBit (setZN sw r) swV v) := by
  refine ⟨?_, ?_, ?_, ?_, ?_, ?_, fun j h1 h2 => ?_⟩
  case refine_7 => rw [bit_setBit _ _ _ _ h2, bit_setZN _ _ _ h2]; simp [show j ≠ 1 by omega, show j ≠ 2 by omega, swC, swV]; omega
  all_goals rw [bit_setBit _ _ _ _ (by omega), bit_setZN _ _ _ (by omega)]; simp [zn, swC, swV]

theorem bit_setCZNV (sw r : Word) (c v : Bool) (j : Nat) (hj : j < 32) : bit (setCZNV sw c r v) j =
   if j = 3 then v else if j = 0 then c else if j = 1 then decide (r = 0) else if j = 2 then decide (r.toInt < 0) else bit sw j := by
  simp only [setCZNV, bit_setBit _ _ _ _ hj, bit_setZN _ _ _ hj]

theorem sum_hold (sw r : Word) (c v : Bool) : ({ zn r with c := some c, v := some v } : Flags).hold sw (setCZNV sw c r v) := by
  refine ⟨?_, ?_, ?_, ?_, ?_, ?_, fun j h1 h2 => ?_⟩
  case refine_7 => rw [bit_setCZNV _ _ _ _ _ h2]; simp [show j ≠ 1 by omega, show j ≠ 2 by omega, show j ≠ 0 by omega, show j ≠ 3 by omega]
  all_goals rw [bit_setCZNV _ _ _ _ _ (by omega)]; simp [zn]

theorem fits_iff (x : Int) : (!fitsS32 x) = decide ((BitVec.ofInt 32 x).toInt ≠ x) := by
  unfold fitsS32
  rw [BitVec.toInt_ofInt]
  by_cases h : -2147483648 ≤ x ∧ x ≤ 2147483647
  · have : x.bmod (2^32) = x := by rw [Int.bmod_eq_of_le] <;> omega
    rw [this]
    simp [h]
  · have : ¬ x.bmod (2^32) = x := by
      intro e
      have := @Int.le_bmod x (2^32) (by decide)
      have := @Int.bmod_lt x (2^32) (by decide)
      omega
    rw [decide_eq_true this]
    simp <;> omega

theorem addFlags_ok (sw a b : Word) (c : Bool) : ∃ fl, summed (a.toInt + b.toInt + c.toNat) (decide (2 ^ 32 ≤ a.toNat + b.toNat + c.toNat)) = ((addFlags sw a b c).1, fl) ∧ fl.hold sw (addFlags sw a b c).2 := by
  have : BitVec.ofInt 32 (a.toInt + b.toInt + c.toNat) = a + b + BitVec.ofNat 32 c.toNat := by
    simp [BitVec.ofInt_add]
  refine ⟨_, ?_, sum_hold _ _ _ _⟩
  simp only [summed, addFlags, this, fits_iff]

theorem subFlags_ok (sw a b : Word) (c : Bool) : ∃ fl, summed (a.toInt - b.toInt - (!c).toNat) (decide (b.toNat + (!c).toNat ≤ a.toNat)) = ((subFlags sw a b c).1, fl) ∧ fl.hold sw (subFlags sw a b c).2 := by
  have : BitVec.ofInt 32 (a.toInt - b.toInt - (!c).toNat) = a - b - BitVec.ofNat 32 (!c).toNat := by
    simp only [Int.sub_eq_add_neg, BitVec.ofInt_add, BitVec.ofInt_neg, BitVec.sub_eq_add_neg, BitVec.ofInt_toInt, BitVec.ofInt_natCast]
  refine ⟨_, ?_, sum_hold _ _ _ _⟩
  simp only [summed, subFlags, this, fits_iff]

theorem clamp_ok (x : Int) : clamp32 x = BitVec.ofInt 32 (clamped x) := by
  unfold clamp32 clamped
  split
  · rw [show max (-2147483648) (min x 2147483647) = 2147483647 by omega]; rfl
  · split
    · rw [show max (-2147483648) (min x 2147483647) = -2147483648 by omega]; rfl
    · rw [show max (-2147483648) (min x 2147483647) = x by omega]

theorem fits_clamp (x : Int) : (!fitsS32 x) = decide (clamped x ≠ x) := by
  unfold fitsS32 clamped
  by_cases h : -2147483648 ≤ x ∧ x ≤ 2147483647
  · simp [h.1, h.2] <;> omega
  · by_cases h2 : x ≤ 2147483647
    · simp [show ¬ -2147483648 ≤ x by omega] <;> omega
    · simp [h2] <;> omega

theorem satFlags_ok (sw : Word) (c : Bool) (x : Int) : ∃ fl, saturated x c = ((satFlags sw c x).1, fl) ∧ fl.hold sw (satFlags sw c x).2 := by
  refine ⟨(saturated x c).2, ?_, ?_⟩
  · simp [saturated, satFlags, clamp_ok]
  · simp only [saturated, satFlags, clamp_ok, fits_clamp]
    refine ⟨?_, ?_, ?_, ?_, ?_, ?_, fun j h1 h2 => ?_⟩
    case refine_7 => rw [bit_stick _ _ _ _ h2, bit_setCZNV _ _ _ _ _ h2]; simp [show j ≠ 1 by omega, show j ≠ 2 by omega, show j ≠ 0 by omega, show j ≠ 3 by omega, show j ≠ 4 by omega]
    all_goals rw [bit_stick _ _ _ _ (by omega), bit_setCZNV _ _ _ _ _ (by omega)]; by_cases h : clamped x = x <;> simp [h, sticky, swS, zn]

theorem roundEq (rm : Nat) (x : Int) (k : Nat) (hk : 0 < k) : roundShift rm x k = rounded rm x k := by
  have hd : (0:Int) ≤ 2 ^ k := Int.le_of_lt (Int.pow_pos (by decide))
  have e1 : Int.fdiv x (2^k) = x / 2^k := Int.fdiv_eq_ediv_of_nonneg x hd
  have e2 : Int.fmod x (2^k) = x % 2^k := Int.fmod_eq_emod_of_nonneg x hd
  have e3 : ∀ q : Int, Int.fmod q 2 = q % 2 := fun q => Int.fmod_eq_emod_of_nonneg q (by decide)
  unfold roundShift rounded
  simp only [e1, e2, e3, if_neg (show ¬ k = 0 by omega)]
  split <;> simp

theorem qmul_ok (sw a b : Word) : ∃ fl, binary .qmul sw a b = some ((qmulFlags sw a b).1, fl) ∧ fl.hold sw (qmulFlags sw a b).2 := by
  refine ⟨{ zn (qmulFlags sw a b).1 with s := sticky (decide (clamped (rounded (fld sw 7 6) (a.toInt * b.toInt) 31) ≠ (rounded (fld sw 7 6) (a.toInt * b.toInt) 31))) }, ?_, ?_⟩
  · simp [binary, qmulFlags, q31Product, roundEq, clamp_ok, rmOf]
  · simp only [qmulFlags, q31Product, roundEq _ _ _ (show 0 < 31 by decide), clamp_ok, fits_clamp, rmOf]
    generalize rounded (fld sw 7 6) (a.toInt * b.toInt) 31 = x
    refine ⟨?_, ?_, ?_, ?_, ?_, ?_, fun j h1 h2 => ?_⟩
    case refine_7 => rw [bit_stick _ _ _ _ h2, bit_setZN _ _ _ h2]; simp [show j ≠ 1 by omega, show j ≠ 2 by omega, show j ≠ 4 by omega]
    all_goals rw [bit_stick _ _ _ _ (by omega), bit_setZN _ _ _ (by omega)]; by_cases h : clamped x = x <;> simp [h, sticky, swS, zn]

theorem cmp_hold (sw a b : Word) : (compared a b).hold sw (subFlags sw a b true).2 := by
  obtain ⟨fl, h1, h2⟩ := subFlags_ok sw a b true
  have : (compared a b) = fl := by
    unfold compared; simp at h1; simp [h1]
  rw [this]; exact h2

theorem slt_iff (a b : Word) : a.slt b = decide (a.toInt < b.toInt) := rfl
theorem sle_iff (a b : Word) : a.sle b = decide (a.toInt ≤ b.toInt) := rfl

theorem two_op {i : Instr} {s : State} {n : Nat} {I : Insn} {f : Word → Word → Word → Word × Word} (a b r : Word) (fl : Flags)
    (rest : List Word) (h : s.steady n = true) (hi : I.admitted n = true) (hl : I.long = false) (hp : I.priv = false)
    (he : exec i s = .next (s.binOp I f)) (hoc : (s.ctx n).oc = b :: a :: rest) (hlen : (s.ctx n).oc.length ≤ 16)
    (hf : (f (s.ctx n).sw a b).1 = r ∧ fl.hold (s.ctx n).sw (f (s.ctx n).sw a b).2) :
    ∃ sw, fl.hold (s.ctx n).sw sw ∧ Computes i s n { s.ctx n with oc := r :: rest, sw := sw } := by
  refine ⟨_, hf.2, ?_⟩
  have := binOp_computes a b rest h hi hl hp he hoc hlen
  rw [hf.1] at this
  exact this

theorem shiftOp_ok {i : Instr} {s : State} {n : Nat} {code : Nat} {f : Word → Nat → Word × Bool} (a b r : Word) (fl : Flags)
    (rest : List Word) (h : s.steady n = true) 
    (he : exec i s = .next (s.shiftOp code f)) (hoc : (s.ctx n).oc = b :: a :: rest) (hlen : (s.ctx n).oc.length ≤ 16)
    (hf : (shiftFlags (s.ctx n).sw a b.toNat false f).1 = r ∧ fl.hold (s.ctx n).sw (shiftFlags (s.ctx n).sw a b.toNat false f).2) :
    ∃ sw, fl.hold (s.ctx n).sw sw ∧ Computes i s n { s.ctx n with oc := r :: rest, sw := sw } := by
  refine ⟨_, hf.2, ?_⟩
  have hpl := State.steady_plain s n h
  have h3 : (s.ctx n).load = none := ((Ctx.plain_iff _).1 hpl).2.2.1
  have h7 : bit (s.ctx n).ctrl 7 = false := ((Ctx.plain_iff _).1 hpl).2.2.2.2.2.2.2.2.2.2.1
  refine computes_of (I := { code := code }) (shiftFlags (s.ctx n).sw a b.toNat false f).2 (s.ctx n).acc (s.ctx n).la (s.ctx n).ls
    (s.ctx n).ldepth (s.ctx n).iwn (r :: rest) (s.ctx n).rc h rfl rfl (by simp) he ?_
  intro S _
  have hb : ((s.ctx n).begin false).oc = b :: a :: rest := hoc
  rw [State.popN_cached S n 2 _ (by rw [hb]; simp) (by exact h3)]
  have hk : ∀ c : Ctx, c.ctrl = (s.ctx n).ctrl → (S.setCtx n c).k4 n = false := by
    intro c hc; simp [State.k4, hc, h7]
  simp only [hb, State.ctx_setCtx_same, List.take, List.drop, List.getD_cons_zero, List.getD_cons_succ]
  have hsw : ((s.ctx n).begin false).sw = (s.ctx n).sw := rfl
  simp only [hsw]
  have h7' : bit ((s.ctx n).begin false).ctrl 7 = false := h7
  simp only [State.k4, State.ctx_setCtx_same, h7']
  rw [State.push_cached S n _ _ (by simp [hoc] at hlen ⊢; omega)]
  simp only [State.setCtx_updCtx, hf.1]
  rfl

theorem shifted_ok (sw a : Word) (n : Nat) (f : Word → Nat → Word × Bool) (r : Word) (l : Bool)
   (hr : n ≠ 0 → f a n = (r, l)) : (shiftFlags sw a n false f).1 = (shifted a r n l).1 ∧ (shifted a r n l).2.hold sw (shiftFlags sw a n false f).2 := by
  unfold shiftFlags shifted
  by_cases h : n = 0
  · simp [h, logic_hold]
  · simp [h, hr h, shift_hold]

theorem permOp_computes {i : Instr} {s : State} {n : Nat} {I : Insn} {k : Nat} {f : List Word → List Word} (st : List Word)
    (h : s.steady n = true) (hi : I.admitted n = true) (hl : I.long = false) (hp : I.priv = false)
    (he : exec i s = .next (s.permOp I k f)) (hk : k ≤ (s.ctx n).oc.length) (h16 : st.length ≤ 16)
    (hs : (f ((s.ctx n).oc.take k)).reverse ++ (s.ctx n).oc.drop k = st) :
    Computes i s n { s.ctx n with oc := st } := by
  have := stackOp_computes (i := i) (s := s) (n := n) (I := I) (k := k) (f := _) (f ((s.ctx n).oc.take k)) (s.ctx n).sw
    h hi hl (by simp [hp]) he hk (by rw [← hs] at h16; simpa [Nat.add_comm] using h16) (by intro c hc _; rw [hc])
  rw [hs] at this
  exact this

end Sys2Proof.Machine
end

