-- ==== Sys2Proof/Machine/Pins.lean ====
section
/-! DEFINITION. The boundary outputs (R25, R31 to R34): the value of each from the state. -/

namespace Sys2Proof.Machine

/-- The outputs of R25, by group; those of a link and of a member of a bus by number or as a whole. -/
inductive OutPin where
  | hpRdata | hpRdy | hpResp | hpIrq
  | flTx (n : Nat) | flDe (n : Nat) | flRe (n : Nat)
  | bpTxc | bpTxf | bpTxd | bpRxlock
  | cpTxc | cpTxf | cpTxd | cpRxlock
  | evtOut
  | clapO | clapOe
  | lockup | halted | forced | mode
  | traceClk | traceD
  | pwrReq
  | kpSlot | kpAddr | kpRd
  | teSo
  deriving DecidableEq, Repr

/-- The power domain that drives an output. -/
def OutPin.domain : OutPin → Nat
  | .hpRdata | .hpRdy | .hpResp | .hpIrq => 8
  | .flTx _ | .flDe _ | .flRe _ => 9
  | .bpTxc | .bpTxf | .bpTxd | .bpRxlock | .cpTxc | .cpTxf | .cpTxd | .cpRxlock => 10
  | .evtOut => 2
  | .clapO | .clapOe | .traceClk | .traceD | .kpSlot | .kpAddr | .kpRd => 11
  | .lockup | .halted | .forced | .mode | .pwrReq | .teSo => 0

/-- The value of an output while its domain is OFF or in reset: 0 but for TX and RE of the field links. -/
def OutPin.off : OutPin → Nat
  | .flTx _ | .flRe _ => 1
  | _ => 0

/-- Domain n's outputs are clamped: it is OFF or in reset (R47, R48). -/
def State.clamped (s : State) (n : Nat) : Bool :=
  match (s.dom n).st with
  | .run | .doze | .dozing => false
  | _ => true

/-- HALTED: the core executes no instruction, in a debug halt, in a halt for good, or in a start halt (R33, R79, R229). -/
def State.haltedOut (s : State) : Bool := decide (s.core.halt ≠ .none) || s.str.halt

/-- EVT_OUT: the value the program last wrote; a standby, and a block that has become primary until its first cycle begins, hold
the lines at 0 (R34). -/
def State.evtLines (s : State) : BitVec 8 := if s.standby || s.car.evtHeld then 0 else s.car.evtOut

/-- PWR_REQ: the rails of PD0 and of every domain that is not OFF or on its way there. -/
def State.pwrReq (s : State) : Nat :=
  bitsOf 12 fun n => match (s.dom n).st with
    | .off | .falling _ => false
    | _ => true

/-- Link n's driver is enabled: it sends a strobe, or a request; of an exchange the model does not tell how far it is, so that what is
left of the request is a free value (R295). A block that follows a primary drives no link (R320). -/
def State.linkDrives (s : State) (n : Nat) : Bool :=
  !s.follows && ((s.link n).strobe.isSome || ((s.link n).exch.isSome && Config.requestLeaves n s.free))

/-- What an output that is not clamped shows; none where the wave form of a transfer gives it, whose timing the model leaves out. -/
def State.driven (s : State) : OutPin → Option Nat
  | .hpRdata => some s.hst.rdata.toNat
  | .hpResp => some s.hst.resp
  | .hpRdy => none
  | .hpIrq => some ((s.reg Reg.HST_IRQ &&& s.reg Reg.HST_IRQEN).toNat % 16)
  | .flTx n => if s.linkDrives n then none else some 1
  | .flDe n => some (s.linkDrives n).toNat
  | .flRe n => some (s.linkDrives n).toNat
  | .bpRxlock => some s.bcn.rxlock.toNat
  | .cpRxlock => some s.chn.rxlock.toNat
  | .bpTxc | .bpTxf | .bpTxd | .cpTxc | .cpTxf | .cpTxd => none
  | .evtOut => some s.evtLines.toNat
  | .clapO => some 0
  | .clapOe => if s.dbg.conn then none else some 0
  | .traceClk => if s.traceOn then none else some 0
  | .traceD => some (if s.traceOn then s.traceNibble else 0)
  | .kpSlot | .kpAddr | .kpRd => if s.str.step = 4 then none else some 0
  | .lockup => some (decide (s.core.halt = .lockup)).toNat
  | .halted => some s.haltedOut.toNat
  | .forced => some s.scn.forced.toNat
  | .mode => some s.scn.mode.code
  | .pwrReq => some s.pwrReq
  | .teSo => some 0

/-- An output. While PD8 is OFF or in reset the responder in PD0 drives HP_RDY and HP_RESP (R31). -/
def State.pin (s : State) (p : OutPin) : Option Nat :=
  if s.clamped p.domain then
    match p with
    | .hpRdy => none
    | .hpResp => some 2
    | _ => some p.off
  else s.driven p

end Sys2Proof.Machine
end

