-- ==== Sys2Proof/Tests/Slice0.lean ====
section
/-! SUPPORT. Tests: ill-formed terms that the check of operands refuses, one step of commands against the values that the
spec's tables give, and for each statement states and operands that meet its hypotheses. -/

namespace Sys2Proof.Tests

set_option Elab.async false

open Sys2Proof Sys2Proof.Machine Sys2Proof.Claims

/-! ### Instruction words, by the encodings of R125, R134, R138, R139 and R158 -/

theorem test_words : decodeInsn 0xFFFF = .lit 0x7FFF ∧ decodeInsn 0x4A05 = .conditionalBranch 2 true 5
    ∧ decodeInsn 0x2FFF = .jmp 0xFFF ∧ decodeInsn 0x3001 = .call 1 ∧ decodeInsn 0x1703 = .psh 3
    ∧ decodeInsn 0x0147 = .asr 7 ∧ decodeInsn 0x01A7 = .asl 39 ∧ decodeInsn 0x0232 = .sth 2
    ∧ decodeInsn 0x0168 = .illegalInstruction 0x0168 := by decide +kernel

/-! ### Small states -/

/-- A valid descriptor of an area, from entry 5 of its table. -/
def area (base limit : Nat) (r w x : Bool) : Word × Word :=
  (BitVec.ofNat 32 (base + r.toNat * 2 ^ 23 + w.toNat * 2 ^ 24 + x.toNat * 2 ^ 25 + 2 ^ 29), BitVec.ofNat 32 (limit + 5 * 2 ^ 24))

/-- Context 1: code in CBA, data and both stacks in the data bank, three words cached. -/
def ctx1 : Ctx :=
  { pc := 0x100, sw := 0x01000080, osp := 0x1000, rsp := 0x1000, st := .ready, entry := 0x100, oc := [5, 7, 9]
    segs := [(0, area 0 0xFFF false false true), (1, area 0x400000 0xFFFF true true false),
      (2, area 0x410000 0xFFF true true false), (3, area 0x420000 0xFFF true true false)] }

def domOn : Dom := { st := .run, ack := true }

/-- The block in RUN, in the program phase, context 1 on the core, every domain in RUN. -/
def live : State :=
  { State.reset with
    pwr := { State.reset.pwr with por := false, doms := (List.range 11).map fun n => (n + 1, domOn) }
    scn := { State.reset.scn with mode := .run, phase := .program }
    str := { State.reset.str with gen := 1, step := 15, entered := 1, startCount := 7 }
    clk := { State.reset.clk with us := 777 }
    car := { State.reset.car with running := some 1, ctxs := [(1, ctx1)] } }

/-- `live` with context 1 as given. -/
def with1 (c : Ctx) : State := { live with car := { live.car with ctxs := [(1, c)] } }

/-- `live` with these words cached, the return stack, and SW. -/
def ops (oc : List Word) : State := with1 { ctx1 with oc := oc }
def ops2 (oc rc : List Word) (sw : Word) : State := with1 { ctx1 with oc := oc, rc := rc, sw := sw }

/-- Bytes put into the banks. -/
def put (s : State) (a : Nat) (bs : List Byte) : State := { s with mem := Map.setAll memDefault s.mem a bs }

/-- What a command makes of context 1, and the words cached and C, Z, N, V, S of it. -/
def after (i : Instr) (s : State) : State :=
  match exec i s with
  | .next t => t
  | _ => s
def result (i : Instr) (oc : List Word) : List Word × List Bool :=
  let c := (after i (ops oc)).ctx 1
  (c.oc, (List.range 5).map fun j => bit c.sw j)

/-- A bound from 1 on, from a bound from 0 on. -/
theorem from_one {P : Nat → Prop} (k : Nat) (h : ∀ n, n < k + 1 → 1 ≤ n → P n) : ∀ n, 1 ≤ n → n ≤ k → P n :=
  fun n a b => h n (by omega) a

/-! ### Operands out of range -/

theorem test_ill_formed :
    ([.pwrAckRise 0, .domainReady 12, .pwrAckFall 12, .pwrAckUnrequestedFall 0, .ackTimeout 12, .dozeEntry 0,
      .sleepWake (.evtIn 11), .sleepWake (.evtIn 16), .clockLoss 8, .measurementWindow [1], .evtInEdge 16, .clockCheckPass [],
      .authenticateAndDecrypt 4, .bankBist 4096 false, .hostRead 0x100000, .hostWrite 0 0 16, .registerWrite .host 0x780002 0,
      .registerWrite .host 0x794000 0, .replyStatusRead .host 16, .carPrioWrite .host 64 0, .timerWrite .host 16 0,
      .beaCmpWrite .host 16 0, .asr 0, .asr 40, .asl 0, .asl 40, .correctedWriteback 16, .segld 0, .imgscan (some 0),
      .imgcmp (some 0), .blkmov 0 0 (some 0), .blkfil 0 (some 0), .savel 0 (some 0), .saveu 0 (some 0), .oemInstruction 0 (some 0),
      .faultEntry 32 0 0, .faultEntry 0 16 0, .faultEntry 0 0 16] : List Instr).all (fun i => !i.wf) = true := by decide +kernel

theorem test_ill_formed_events :
    ([.operandSpill 5, .operandFill 0, .returnSpill 9, .returnFill 1, .fpOwnershipTransfer (some 0), .fpOwnershipTransfer (some 4),
      .intervalTimer 16, .dataRequest 8 0, .dataRequest 0 32, .identRequest 8 0, .configRequest 0 32, .dataResponse 8 [],
      .identResponse 8 [], .configResponse 8 [], .responseTimeout 8, .heldFrameBurst 8, .mainsEdge 4 0, .missingEdgeLockLoss 4,
      .encoderTransition 4 false false, .indexEdge 4, .compareMatch 16 false, .strobeStart 16 0, .strobeStart 0 8, .strobeEnd 16 0,
      .strobeFallback 256, .memberSafeTimeout 8 0, .deltaReceived 65536 0 [], .relReceived 0 65536 [], .hznReceived 65536 0 [],
      .hkReceived 65536 0 true [], .stateReceived 65536 0 [], .failReceived 65536 0 [], .keepReceived 65536 0 [],
      .helloReceived 65536 0 [], .statusReceived 65536 0 [], .takenReceived 0 0 (List.replicate 1025 0), .tokenReceived 8 0 0,
      .tokenReceived 0 0 256, .slotReceived 8 0 [], .clapBadRequest 16, .dbgId 16, .dbgStatus 16, .dbgRead 16 0 0, .dbgRead 0 16 0,
      .dbgReadLive 0 0 0x10000000, .dbgWrite 16 0 0 0, .dbgHalt 16, .dbgResume 16, .dbgStep 16, .classLastingEnd 32 0,
      .classLastingEnd 0 512] : List Instr).all (fun i => !i.wf) = true := by decide +kernel

theorem test_well_formed :
    ([.pwrAckRise 11, .sleepWake (.evtIn 15), .clockLoss 7, .hostWrite 0xFFFFF 0 15, .registerWrite .host 0x793FFC 0, .asr 39, .asl 1,
      .segld 7, .imgscan (some 1), .faultEntry 31 15 15, .operandSpill 4, .fpOwnershipTransfer (some 3), .deltaReceived 65535 65535 [],
      .classLastingEnd 31 511, .dbgWrite 15 15 0xFFFFFFF 0] : List Instr).all Instr.wf = true := by decide +kernel

/-! ### The edges of integer arithmetic (R112 to R114), C, Z, N, V, S in this order -/

theorem test_add : result .add [1, 0x7FFFFFFF] = ([0x80000000], [false, false, true, true, false]) := by decide +kernel
theorem test_adds : result .adds [1, 0x7FFFFFFF] = ([0x7FFFFFFF], [false, false, false, false, true]) := by decide +kernel
theorem test_sub : result .sub [1, 0x80000000] = ([0x7FFFFFFF], [true, false, false, true, false]) := by decide +kernel
theorem test_subs : result .subs [1, 0x80000000] = ([0x80000000], [true, false, true, false, true]) := by decide +kernel
theorem test_sub_zero : result .sub [1, 0] = ([0xFFFFFFFF], [false, false, true, false, false]) := by decide +kernel
theorem test_neg_zero : result .neg [0] = ([0], [true, true, false, false, false]) := by decide +kernel
theorem test_neg_min : result .neg [0x80000000] = ([0x80000000], [false, false, true, true, false]) := by decide +kernel
theorem test_negs_min : (result .negs [0x80000000]).1 = [0x7FFFFFFF] := by decide +kernel
theorem test_mul_overflow : (result .mul [0xFFFFFFFF, 0x80000000]).1 = [0x80000000] := by decide +kernel
theorem test_mul_zero : (result .mul [0x10000, 0x10000]).1 = [0]
    ∧ bit ((after .mul (ops [0x10000, 0x10000])).ctx 1).sw 3 = true := by decide +kernel
theorem test_div_truncates : (result .div [2, 0xFFFFFFF9]).1 = [0xFFFFFFFD] := by decide +kernel
theorem test_rem_sign : (result .rem [2, 0xFFFFFFF9]).1 = [0xFFFFFFFF] := by decide +kernel
theorem test_div_min : (result .div [0xFFFFFFFF, 0x80000000]).1 = [0x80000000] := by decide +kernel
theorem test_divs_min : (result .divs [0xFFFFFFFF, 0x80000000]).1 = [0x7FFFFFFF] := by decide +kernel
theorem test_divu_zero : (result .divu [0, 7]).1 = [0xFFFFFFFF] := by decide +kernel
theorem test_remu_zero : (result .remu [0, 7]).1 = [7] := by decide +kernel
theorem test_shl_32 : (result .shl [32, 3]).1 = [0] ∧ bit ((after .shl (ops [32, 3])).ctx 1).sw 0 = true := by decide +kernel
theorem test_shr_33 : (result .shr [33, 0xFFFFFFFF]).1 = [0] ∧ bit ((after .shr (ops [33, 0xFFFFFFFF])).ctx 1).sw 0 = false := by
  decide +kernel
theorem test_sar_40 : (result .sar [40, 0x80000000]).1 = [0xFFFFFFFF] := by decide +kernel
theorem test_lit : (result (.lit 0x4000) [1]).1 = [0xFFFFC000, 1] := by decide +kernel
theorem test_lcat : (result .lcat [0, 0xD8]).1 = [0x6C0000] := by decide +kernel
theorem test_rot : (result .rot [3, 2, 1]).1 = [1, 3, 2] := by decide +kernel
theorem test_exti : (result .exti []).1 = [0] := by decide +kernel

/-! ### Digests, codes and signatures (the published test values of SHA-256 and CRC-32) -/

theorem test_sha256_empty : (sha256 []).take 4 = [0xE3, 0xB0, 0xC4, 0x42] := by decide +kernel
theorem test_crc32_check : crc32 [0x31, 0x32, 0x33, 0x34, 0x35, 0x36, 0x37, 0x38, 0x39] = 0xCBF43926 := by decide +kernel

/-! ### The statements about instructions meet states -/

theorem witness_StackInstructions :
    live.steady 1 = true ∧ pushes .depth live 1 = some 3 ∧ (live.ctx 1).oc.length < 16
    ∧ pushes .getsw live 1 = some 0x01000080 ∧ permuted .rot (live.ctx 1).oc = some [9, 5, 7] := by decide +kernel

theorem witness_StackInstructions_full :
    let s := ops (List.replicate 15 1)
    s.steady 1 = true ∧ pushes (.lit 0x4000) s 1 = some 0xFFFFC000 ∧ (s.ctx 1).oc.length < 16
    ∧ permuted .drop (s.ctx 1).oc = some (List.replicate 14 1) := by decide +kernel

theorem witness_ArithmeticResults : live.steady 1 = true ∧ (live.ctx 1).oc = 5 :: 7 :: [9] ∧ (live.ctx 1).oc.length ≤ 16
    ∧ (binary .sub (live.ctx 1).sw 7 5).isSome = true ∧ (divided .div 7 5).isSome = true
    ∧ (unary .neg 5).isSome = true := by decide +kernel

theorem witness_ArithmeticResults_zero : let s := ops [0, 7]
    s.steady 1 = true ∧ (s.ctx 1).oc = 0 :: 7 :: [] ∧ (s.ctx 1).oc.length ≤ 16
    ∧ s.f Reg.EXC_CTRL 0 0 = 0 ∧ (divided .remu 7 0).isSome = true := by decide +kernel

theorem witness_AccumulatorResult : live.steady 1 = true ∧ (live.ctx 1).oc.length ≤ 16
    ∧ (accumulates .mac (live.ctx 1).sw (live.ctx 1).acc (live.ctx 1).oc).any (fun e => decide (e.st.length ≤ 16)) = true
    ∧ (accumulates (.asr 39) (live.ctx 1).sw (live.ctx 1).acc (live.ctx 1).oc).any (fun e => decide (e.st.length ≤ 16)) = true
    ∧ (accumulates .extqs (live.ctx 1).sw 0x8000000000 (live.ctx 1).oc).any (fun e => decide (e.st.length ≤ 16)) = true := by
  decide +kernel

theorem witness_RegisterMoves : live.steady 1 = true
    ∧ (logic .lpush (live.ctx 1).la (live.ctx 1).ls (live.ctx 1).ldepth).isSome = true ∧ (live.ctx 1).oc = 5 :: [7, 9]
    ∧ (live.ctx 1).rc.length < 8 := by decide +kernel

theorem witness_RegisterMoves_sw : let s := ops [0x4FF, 1]
    s.steady 1 = true ∧ (s.ctx 1).oc = 0x4FF :: [1] ∧ bit (0x4FF : Word) 8 = bit (s.ctx 1).sw 8 ∧ bit (0x4FF : Word) 9 = false
    ∧ bit (0x4FF : Word) 11 = bit (s.ctx 1).sw 11 := by decide +kernel

theorem witness_RegisterMoves_iw : let s := ops [0x10FF00]
    s.steady 1 = true ∧ (s.ctx 1).oc = 0x10FF00 :: [] ∧ (0x10FF00 : Word).toNat % 256 = 0 ∧ (0x10FF00 : Word).toNat < 0x110000 := by
  decide +kernel

theorem witness_RegisterMoves_return : let s := ops2 [1] [4, 6] 0x01000080
    s.steady 1 = true ∧ (s.ctx 1).rc = 4 :: [6] ∧ (s.ctx 1).oc.length < 16 := by decide +kernel

/-- Context 1 with the image window at word n × 4. -/
def windowed (n ldepth : Nat) (la : Bool) : State := with1 { ctx1 with iwn := n, ldepth := ldepth, la := la }

theorem witness_BitInstructions :
    (let s := windowed 0 0 true;
      s.steady 1 = true ∧ s.imageOpen = true ∧ (bits (.ld 7) true (s.pointVal 7)).any (fun e => !e.stores && !e.push) = true)
    ∧ (let s := windowed 0 15 true;
      s.steady 1 = true ∧ (bits (.psh 7) true (s.pointVal 7)).any (fun e => e.push) = true ∧ (s.ctx 1).ldepth < 16)
    ∧ (let s := windowed 1024 0 true;
      s.steady 1 = true ∧ (bits (.st 0) true (s.pointVal (1024 * 256))).any (fun e => e.stores) = true
        ∧ 4096 ≤ 1024 * 256 / 64 ∧ 1024 * 256 / 64 < 16384)
    ∧ (let s := windowed 1023 0 true;
      s.steady 1 = true ∧ (bits (.tgl 255) true (s.pointVal (1023 * 256 + 255))).any (fun e => e.stores) = true
        ∧ (1023 * 256 + 255) / 64 < 4096 ∧ s.entryRoom 1 = true)
    ∧ (let s := windowed 4096 0 true;
      s.steady 1 = true ∧ (bits (.edgr 0) true (s.pointVal (4096 * 256))).any (fun e => e.stores) = true
        ∧ 16384 ≤ 4096 * 256 / 64 ∧ s.entryRoom 1 = true) := by decide +kernel

theorem witness_VectorInstructions :
    (let s := ops [0x10FFC0, 3, 4];
      s.steady 1 = true ∧ s.imageOpen = true ∧ (s.ctx 1).oc = 0x10FFC0 :: [3, 4] ∧ (s.ctx 1).oc.length ≤ 15
        ∧ (0x10FFC0 : Word).toNat % 64 = 0 ∧ (0x10FFC0 : Word).toNat < 0x110000
        ∧ (vector .vcnt (s.img ((0x10FFC0 : Word).toNat / 64)) [3, 4]).any (fun r => r.2 == none) = true)
    ∧ (let s := ops [0x40000, 3, 4];
      s.steady 1 = true ∧ (s.ctx 1).oc = 0x40000 :: [3, 4] ∧ (vector .vset (s.img 4096) [3, 4]).any (fun r => r.2.isSome) = true
        ∧ 4096 ≤ (0x40000 : Word).toNat / 64 ∧ (0x40000 : Word).toNat / 64 < 16384) := by decide +kernel

theorem witness_LoadInstructions :
    (let s := ops [0xFFFC, 7];
      s.steady 1 = true ∧ loads (.ldw 1) = some (1, 4, false) ∧ (s.ctx 1).oc = 0xFFFC :: [7]
        ∧ plainAccess s 1 1 true false 0xFFFC 4 = true ∧ dNS ((s.ctx 1).seg 1) = false)
    ∧ (let c : Ctx := { ctx1 with load := some (2, 0x55) };
      let s := with1 c;
      (s.ctx 1).oc = 5 :: [7, 9] ∧ (s.ctx 1).load = some ((s.ctx 1).depth - 1, 0x55) ∧ 0 < (s.ctx 1).depth
        ∧ ({ s with car := { s.car with ctxs := Map.set (fun _ => {}) s.car.ctxs 1 { s.ctx 1 with load := none } } } : State).steady 1
          = true) := by decide +kernel

theorem witness_StoreInstructions : let s := ops [0xFFFC, 7]
    s.steady 1 = true ∧ stores (.stb 1) = some (1, 1) ∧ (s.ctx 1).oc = 0xFFFC :: 7 :: [] ∧ plainAccess s 1 1 false true 0xFFFC 1 = true
    ∧ (s.ctx 1).depth ≥ 2 ∧ plainAccess s 1 1 true true 0xFFFC 4 = true := by decide +kernel

/-- SW after CMP of 3 with 5, and one for which the flags hold. -/
theorem witness_ConditionalBranch_relation : (compared 3 5).hold 0 4 ∧ relation 11 3 5 = some ((3 : Word).toInt < (5 : Word).toInt) := by
  refine ⟨⟨by decide +kernel, by decide +kernel, by decide +kernel, by decide +kernel, by decide +kernel, by decide +kernel,
    fun j a b => ?_⟩, rfl⟩
  have h : ∀ j, j < 32 → 6 ≤ j → bit (4 : Word) j = bit (0 : Word) j := by decide +kernel
  exact h j b a

theorem witness_ConditionalBranch : live.steady 1 = true ∧ condHolds 0 (live.ctx 1).sw (live.ctx 1).la = false
    ∧ condHolds 1 (live.ctx 1).sw (live.ctx 1).la = true ∧ (1 : BitVec 4) ≠ 15
    ∧ condHolds 15 (live.ctx 1).sw (live.ctx 1).la = true := by decide +kernel

theorem witness_JumpsAndCalls :
    (let s := ops2 [0x200] [0x301] 0x01000080;
      s.steady 1 = true ∧ (s.ctx 1).rc.length < 8 ∧ (s.ctx 1).rc = 0x301 :: [] ∧ (s.ctx 1).oc = 0x200 :: [] ∧ bit (0x200 : Word) 0 = false)
    ∧ (let s := with1 { ctx1 with slot := .taken 0x300 };
      (s.ctx 1).slot = .taken 0x300 ∧ fld (s.ctx 1).prog 31 30 = 0
        ∧ ({ s with car := { s.car with ctxs := Map.set (fun _ => {}) s.car.ctxs 1 { s.ctx 1 with slot := .none } } } : State).steady 1
          = true) := by decide +kernel

theorem witness_OutputInstructions : live.steady 1 = true ∧ bit live.car.latches 127 = false ∧ (live.ctx 1).oc = 5 :: 7 :: [9]
    ∧ live.clean = true ∧ (5 : Word).toNat ≤ dLimit ((live.ctx 1).seg 0) ∧ bit (live.reg Reg.DBG_CHIMEEN) 31 = false := by
  decide +kernel

/-- `live` with the trace port on and every stimulus port enabled. -/
def traced : State :=
  (({ live with dbg := { live.dbg with grant := some ⟨1, false, 0, 9⟩ } } : State).setF Reg.DBG_TRCTRL 0 0 1).setReg
    Reg.DBG_CHIMEEN 0xFFFFFFFF

theorem witness_OutputInstructions_chime : traced.steady 1 = true ∧ (traced.ctx 1).oc = 5 :: [7, 9]
    ∧ bit (traced.reg Reg.DBG_CHIMEEN) 31 = true ∧ traced.traceOn = true ∧ traced.dbg.lostPkts = 0 ∧ traced.dbg.packets < 1000
    ∧ traced.dbg.fifo.length ≤ 240 := by decide +kernel

theorem witness_InstructionFaults :
    live.steady 1 = true ∧ live.entryRoom 1 = true ∧ raises .brk live 1 = some (14, 0) ∧ raises .crel live 1 = some (13, 0)
    ∧ raises .fromr live 1 = some (9, 0) ∧ assigned 0x000F = false ∧ listedFault 3 5 = true := by decide +kernel

theorem witness_InstructionFaults_full : let s := with1 { ctx1 with oc := List.replicate 16 1, osp := 28 }
    s.steady 1 = true ∧ s.entryRoom 1 = true ∧ raises (.lit 0) s 1 = some (6, 0) := by decide +kernel

theorem witness_ReturnFromFault : let s := ops2 [] [0x80000300, 7, 0xFFFFFFFF, 0x777, 5] 0x01000080
    s.steady 1 = true ∧ (s.ctx 1).rc = 0x80000300 :: 7 :: 0xFFFFFFFF :: 0x777 :: [5] ∧ fld (0x80000300 : Word) 31 30 ≠ 3
    ∧ bit (s.reg Reg.DBG_VSTEP) 6 = false := by decide +kernel

/-- Context 0 on the core; and context 1, with a release pending. -/
def scanning : State := { live with car := { live.car with running := some 0, ctxs := [(0, ctx1)] } }

theorem witness_EndOfActivation : scanning.steady 0 = true ∧ scanning.dbg.grant = none
    ∧ (∀ e ∈ scanning.stations, e.2.st ≠ .pending) ∧ (scanning.ctx 0).pend = false
    ∧ (with1 { ctx1 with pend := true }).steady 1 = true ∧ ((with1 { ctx1 with pend := true }).ctx 1).pend = true := by
  decide +kernel

/-- A network record at 0x400100 with two guard entries, and its offset on the stack. -/
def networked (stamp : Nat) : State :=
  let s := { ops [0x100] with scn := { live.scn with cyc := 1000 } }
  put s 0x400100 (toBytes (0x2000 + 2 ^ 22 + 2 * 2 ^ 23) 4 ++ toBytes 0 4 ++ toBytes stamp 8 ++ toBytes 100 2 ++ toBytes 101 2)

theorem witness_NetworkGuard : let s := networked 500
    let hdr := s.mread (dBase ((s.ctx 1).seg 1) + (0x100 : Word).toNat) 4
    s.steady 1 = true ∧ s.imageOpen = true ∧ s.scn.cyc < 2 ^ 56 ∧ (s.ctx 1).oc = 0x100 :: [] ∧ (0x100 : Word).toNat % 8 = 0
    ∧ plainAccess s 1 1 true true 0x100 8 = true ∧ plainAccess s 1 1 true true 0x108 8 = true ∧ hdr % 2 = 0
    ∧ hdr / 2 ^ 23 % 32 ≤ 16 ∧ (∀ j, j < hdr / 2 ^ 23 % 32 → plainAccess s 1 1 true false (0x110 + 2 * j) 2 = true)
    ∧ evaluates s 1 0x400100 = true := by decide +kernel

theorem witness_NetworkGuard_skip : let s := networked 995
    s.steady 1 = true ∧ evaluates s 1 0x400100 = false := by decide +kernel

/-- A privileged context 1 that names context m and x, and context m. -/
def controls (m : Nat) (x : Word) (c : Ctx) : State :=
  { live with car := { live.car with ctxs := Map.set (fun _ => {}) [(1, { ctx1 with sw := 0x01000280, oc := [BitVec.ofNat 32 m, x] })] m c } }

theorem witness_ContextControl :
    (let s := controls 63 15 { st := .waiting };
      s.steady 1 = true ∧ bit (s.ctx 1).sw 9 = true ∧ (s.ctx 1).oc = BitVec.ofNat 32 63 :: 15 :: [] ∧ (s.ctx 63).st = .waiting
        ∧ (15 : Word).toNat ≤ 15 ∧ (s.ctx 63).prio < 16)
    ∧ (let s := controls 2 0 { st := .ready };
      s.steady 1 = true ∧ bit (s.ctx 1).sw 9 = true ∧ (s.ctx 1).oc = BitVec.ofNat 32 2 :: 0 :: [] ∧ (s.ctx 2).st = .ready
        ∧ (s.ctx 2).pend = false) := by decide +kernel

/-- A privileged context 1, and a table entry 255 that describes 4 KiB of the data bank. -/
def loading : State :=
  put (ops2 [255] [] 0x01000280) (0x600000 + 8 * 255) (toBytes (area 0x430000 0xFFF true true false).1.toNat 4 ++ toBytes 0xFFF 4)

theorem witness_SegmentLoad :
    let lo := loading.w32 (0x600000 + 8 * (255 : Word).toNat)
    let hi := loading.w32 (0x600000 + 8 * (255 : Word).toNat + 4)
    loading.steady 1 = true ∧ loading.clean = true ∧ (loading.dom 6).st = .run ∧ bit (loading.ctx 1).sw 9 = true
    ∧ (loading.ctx 1).oc = 255 :: [] ∧ 0 < (255 : Word).toNat ∧ (255 : Word).toNat < 256 ∧ bit lo 29 = true ∧ fld lo 22 0 % 8 = 0
    ∧ fld lo 22 0 + fld hi 21 0 ≤ 0x793FFF ∧ fld lo 22 0 + fld hi 21 0 < 0x600000 ∧ (fld hi 21 0 + 1) % 32 = 0 := by decide +kernel

/-- Context 1 as the owner of the floating-point state. -/
def floating : State :=
  { ops2 [5, 7] [] 0x01000480 with core := { live.core with fpown := some 1, fp := [0x3F800000, 0x40000000] } }

theorem witness_FloatInstructions : floating.steady 1 = true ∧ bit (floating.ctx 1).sw 10 = true ∧ (floating.ctx 1).oc = 5 :: [7]
    ∧ (floats .fadd (floating.ctx 1).sw (floating.ctx 1).oc floating.core.fp floating.core.fpsw).any
      (fun e => decide (e.fp.length ≤ 8)) = true
    ∧ (floats .fftoi (floating.ctx 1).sw (floating.ctx 1).oc floating.core.fp floating.core.fpsw).any
      (fun e => decide (e.fp.length ≤ 8)) = true := by decide +kernel

/-- Save areas for contexts 1 and 5, and an owner of the floating-point state or none. -/
def owning (owner : Option Nat) : State :=
  let s := { live with
    core := { live.core with fpown := owner, fp := [0x3F800000] }
    car := { live.car with ctxs := [(1, ctx1), (5, { ctx1 with sw := 0x05000480 })] } }
  (s.setReg (Reg.CAR_CDFPSA + 32) 0x80402000).setReg (Reg.CAR_CDFPSA + 32 * 5) 0x80403000

theorem witness_FloatOwnership : (∀ o ∈ [none, some 5], let s := owning o
    s.steady 1 = true ∧ s.clean = true ∧ (s.dom 6).st = .run ∧ bit (s.ctx 1).sw 10 = false ∧ (s.ctx 1).fpv = false
    ∧ s.core.pin = false ∧ s.core.fpHalf = none ∧ s.core.fpSaved = none ∧ s.core.fp.length ≤ 8 ∧ s.core.fpown = o
    ∧ bit (s.reg (Reg.CAR_CDFPSA + 32 * 1)) 31 = true ∧ fpsaValid (fld (s.reg (Reg.CAR_CDFPSA + 32 * 1)) 22 0) = true
    ∧ fpsaValid (fld (s.reg (Reg.CAR_CDFPSA + 32 * 5)) 22 0) = true) := by decide +kernel

theorem witness_FloatSpecialValues :
    (fld (0x7F800001 : Word) 30 23 = 255 ∧ fld (0x7F800001 : Word) 22 0 ≠ 0 ∧ ¬ bit (0x7F800001 : Word) 22 = true)
    ∧ (fld (0xBF800000 : Word) 30 23 ≠ 255 ∧ fld (0xBF800000 : Word) 30 0 ≠ 0 ∧ bit (0xBF800000 : Word) 31 = true) := by decide +kernel

theorem witness_ImageSearch :
    (let s := ops [64, 0x43000, 1];
      s.steady 1 = true ∧ s.imageOpen = true ∧ wordsFit 0x43000 64 = true ∧ (s.ctx 1).oc = 64 :: 0x43000 :: [1])
    ∧ (let s := ops [2, 0x44000, 0x43000];
      s.steady 1 = true ∧ wordsFit 0x43000 2 = true ∧ wordsFit 0x44000 2 = true ∧ (s.ctx 1).oc = 2 :: 0x44000 :: 0x43000 :: [])
    ∧ wordsFit 0 0 = true := by decide +kernel

theorem witness_BlockMoves :
    (let s := ops [2, 0x100, 0x80];
      s.steady 1 = true ∧ s.clean = true ∧ (s.ctx 1).oc = 2 :: 0x100 :: 0x80 :: [] ∧ (0x100 : Word).toNat + 4 * 2 < 2 ^ 32
        ∧ (∀ j, j < 2 → plainAccess s 1 1 false true (0x100 + 4 * j) 4 = true) ∧ (0x80 : Word).toNat + 4 * 2 < 2 ^ 32
        ∧ (∀ j, j < 2 → plainAccess s 1 1 true false (0x80 + 4 * j) 4 = true) ∧ dNS ((s.ctx 1).seg 1) = false
        ∧ 0x400080 + 4 * 2 ≤ 0x400100)
    ∧ (let s := ops [9, 0x40000];
      s.steady 1 = true ∧ s.imageOpen = true ∧ s.core.accs = [] ∧ wordsFit 0x40000 9 = true ∧ 8 < (9 : Word).toNat
        ∧ (s.ctx 1).oc = 9 :: 0x40000 :: [] ∧ ∀ j, j < 8 → s.img (4096 + j) = 0) := by decide +kernel

theorem witness_ContextSave : let s := { live with car := { live.car with ctxs := [(1, { ctx1 with sw := 0x01000280, oc := [0x80, 5] })] } }
    s.steady 1 = true ∧ s.clean = true ∧ bit (s.ctx 1).sw 9 = true ∧ (s.ctx 1).prog = 0 ∧ (s.ctx 1).oc = 0x80 :: BitVec.ofNat 32 5 :: []
    ∧ (0x80 : Word).toNat % 128 = 0 ∧ dNS ((s.ctx 1).seg 1) = false
    ∧ ∀ j, j < 32 → plainAccess s 1 1 true true (0x80 + 4 * j) 4 = true := by decide +kernel

theorem witness_OemInstruction : ∀ w ∈ [0x000200C1, 0x0001C000], let s := { live with mcs := { live.mcs with micro := [(3839, w)] } }
    s.steady 1 = true ∧ s.nano 0 = 0 ∧ s.core.accs = [] ∧ s.micro (3584 + (255 : BitVec 8).toNat) = w ∧ s.entryRoom 1 = true := by
  decide +kernel

/-- Stacks with a memory part of 32 bytes. -/
def stacked (oc rc : List Word) : State := with1 { ctx1 with oc := oc, rc := rc, osp := 32, rsp := 32 }

theorem witness_SpillsAndFills : let s := stacked (List.replicate 16 1) (List.replicate 8 2)
    s.steady 1 = true ∧ s.clean = true ∧ (s.ctx 1).oc.length = 16 ∧ (s.ctx 1).rc.length = 8 ∧ 32 ≤ (s.ctx 1).osp.toNat
    ∧ (∀ j, j < 8 → plainAccess s 1 2 false true (32 - 32 + 4 * j) 4 = true)
    ∧ ∀ j, j < 8 → plainAccess s 1 3 false true (32 - 32 + 4 * j) 4 = true := by decide +kernel

theorem witness_SpillsAndFills_fill : let s := stacked (List.replicate 7 1) []
    s.steady 1 = true ∧ s.clean = true ∧ (s.ctx 1).oc.length < 8 ∧ (s.ctx 1).rc = []
    ∧ (∀ j, j < 8 → plainAccess s 1 2 true false (32 + 4 * j) 4 = true)
    ∧ ∀ j, j < 8 → plainAccess s 1 3 true false (32 + 4 * j) 4 = true := by decide +kernel

/-! ### The statements about what the block does on its own meet states -/

/-- Latch j set; its source routed to context m or not. -/
def latched (j : Nat) (entry : Word) (c : Ctx) : State :=
  ({ live with car := { live.car with latches := BitVec.ofNat 128 (2 ^ j), ctxs := [(1, ctx1), (63, c)] } } : State).setReg
    (Reg.CAR_ROUTE + 4 * j) entry

theorem witness_CarillonHappenings_latch :
    (∀ j ∈ [0, 31, 48, 127], let s := latched j 0 {};
      s.calm = true ∧ bit s.car.latches j = true ∧ (∀ i, i < j → bit s.car.latches i = false)
        ∧ bit (s.reg (Reg.CAR_ROUTE + 4 * j)) 7 = false)
    ∧ (∀ st ∈ [CtxSt.waiting, .ready], let s := latched 127 0xBF { st := st };
      s.calm = true ∧ (∀ i, i < 127 → bit s.car.latches i = false) ∧ bit (s.reg (Reg.CAR_ROUTE + 4 * 127)) 7 = true
        ∧ fld (s.reg (Reg.CAR_ROUTE + 4 * 127)) 5 0 = 63 ∧ (s.ctx 63).st = st ∧ (s.ctx 63).pend = false) := by decide +kernel

/-- Timer 15 due, and context 63 ready above context 1. -/
def waitingFor : State :=
  { live with
    car := { live.car with due := [(15, some 777)], ctxs := [(1, ctx1), (63, { st := .ready, prio := 15, seq := 4 })] }
    hst := { live.hst with slots := [(15, { st := 1 })] } }

theorem witness_CarillonHappenings :
    waitingFor.calm = true ∧ waitingFor.reg Reg.EXC_MCPEND = 0 ∧ Map.get (fun _ => none) waitingFor.car.due 15 = some 777 ∧ 777 ≤ waitingFor.clk.us
    ∧ bit waitingFor.car.latches 63 = false ∧ (waitingFor.ctx 63).st = .ready ∧ (waitingFor.ctx 63).dueVector = none
    ∧ (∀ k, k < 64 → k ≠ 63 → (waitingFor.ctx k).st = .ready →
      (waitingFor.ctx k).prio < (waitingFor.ctx 63).prio
        ∨ ((waitingFor.ctx k).prio = (waitingFor.ctx 63).prio ∧ (waitingFor.ctx 63).seq < (waitingFor.ctx k).seq))
    ∧ waitingFor.car.running = some 1 ∧ (waitingFor.ctx 1).plain = true ∧ bit (waitingFor.ctx 1).sw 8 = false := by decide +kernel

theorem witness_CarillonHappenings_share : let s := { waitingFor with car := { waitingFor.car with running := none } }
    s.calm = true ∧ (s.slot 15).st = 1 ∧ s.car.running = none ∧ s.reg Reg.EXC_MCPEND = 0 ∧ 4 ≤ s.str.step ∧ s.str.halt = false
    ∧ s.pwr.sleep ≠ .asleep ∧ s.scn.phase ≠ .housekeeping ∧ s.lanternMasked = false ∧ s.core.lantern.slot = false ∧ s.hst.jobs = [] := by
  decide +kernel

/-- `live` with every fault class recording nothing beyond its count. -/
def quiet (s : State) : State := (List.range 32).foldl (fun s c => s.setReg (Reg.FLT_CFG + 4 * c) 0x00500100) s

theorem witness_CoreHappenings :
    (let s := quiet (with1 { ctx1 with sw := 0x01001080 });
      s.calm = true ∧ s.car.running = some 1 ∧ s.silentClass 9 = true ∧ fld (s.ctx 1).sw 14 12 ≠ 0
        ∧ s.core.lantern.slot = false)
    ∧ (let s := with1 { ctx1 with sw := 0x01000180 };
      s.calm = true ∧ s.steady 1 = true ∧ bit (s.ctx 1).sw 8 = true ∧ s.entryRoom 1 = true) := by decide +kernel

/-- Context 1 holds a load of the top word of the system bank behind these stores. -/
def holding (k : HoldKind) (sb : List SbEntry) : State :=
  { live with core := { live.core with held := some ⟨k, 1, 0x67FFFC, 4, false, 1, false⟩, sb := sb } }

theorem witness_CoreHappenings_held :
    (∀ k ∈ [HoldKind.uncached, .ns], let s := holding k [];
      s.core.held = some ⟨k, 1, 0x67FFFC, 4, false, 1, false⟩ ∧ s.core.sb = []
        ∧ ({ s with core := { s.core with held := none } } : State).steady 1 = true ∧ s.banks.ecc = [] ∧ (s.ctx 1).oc = 5 :: [7, 9]
        ∧ fld (s.ctx 1).prog 31 30 ≠ 1 ∧ (s.ctx 1).noMatch = false ∧ (s.dom 6).st = .run ∧ (s.dom 7).st = .run)
    ∧ (let s := holding .overlap [⟨0x67FFFF, 1, 9, none⟩];
      s.core.held = some ⟨.overlap, 1, 0x67FFFC, 4, false, 1, false⟩
        ∧ ({ s with core := { s.core with held := none } } : State).steady 1 = true ∧ s.banks.ecc = []
        ∧ overlap 0x67FFFC 4 0x67FFFF 1 = true) := by decide +kernel

theorem witness_BankHappenings :
    (let s := { live with core := { live.core with sb := [⟨0x400000, 4, 5, some 1⟩, ⟨0x400000, 1, 6, none⟩] } };
      s.calm = true ∧ s.banks.ecc = [] ∧ (s.dom 6).st = .run)
    ∧ (let s := { live with core := { live.core with fills := [{ data := true, line := 0x67FFE0 / 32 }] } };
      s.calm = true ∧ s.banks.ecc = [] ∧ 32 * (0x67FFE0 / 32) + 32 ≤ 0x680000)
    ∧ (let s := { live with banks := { live.banks with ecc := [(0x5FFFF8 / 8, .single)], writeback := [0x5FFFF8 / 8] } };
      s.calm = true ∧ 0x400000 ≤ 8 * (0x5FFFF8 / 8) ∧ 8 * (0x5FFFF8 / 8) < 0x600000 ∧ s.eccAt (8 * (0x5FFFF8 / 8)) = .single)
    ∧ (let s := live.setReg Reg.MEM_CTRL 1;
      s.calm = true ∧ s.f Reg.MEM_CTRL 0 0 = 1 ∧ s.banks.ecc = [] ∧ ∀ d, d < 12 → (s.dom d).st = .run) := by decide +kernel

/-- The scrub on, at the last microword, its parity good or bad, nothing on the core. -/
def scrubbing (bad : Bool) (pend : Word) : State :=
  let s := quiet { live with
    car := { live.car with running := none }, mcs := { live.mcs with scrubMicro := 4095, bad := if bad then [(4095, 1)] else [] } }
  (s.setReg Reg.MCS_CTRL 1).setReg Reg.EXC_MCPEND pend

theorem witness_ControlStoreRepair :
    (∀ bad ∈ [false, true], let s := scrubbing bad 0;
      s.calm = true ∧ (s.dom 3).st = .run ∧ s.f Reg.MCS_CTRL 0 0 = 1 ∧ s.badAt false s.mcs.scrubMicro = bad.toNat
        ∧ s.badAt true s.mcs.scrubNano = 0 ∧ s.mcs.scrubMicro < 4096 ∧ s.reg Reg.EXC_MCPEND = 0 ∧ bit s.car.latches 108 = false)
    ∧ (∀ p ∈ [2, 1], let s := scrubbing true (BitVec.ofNat 32 p);
      s.calm = true ∧ s.car.running = none ∧ s.hst.interp = none ∧ 4 ≤ s.str.step ∧ s.str.halt = false ∧ s.pwr.sleep ≠ .asleep
        ∧ s.reg Reg.EXC_MCPEND = BitVec.ofNat 32 p
        ∧ bit (s.reg Reg.MCS_PERR) 12 = false ∧ s.banks.ecc = [] ∧ s.silentClass 0 = true) := by decide +kernel

/-- A block in RUN with nothing configured, in a phase. -/
def idleIn (p : Phase) : State :=
  { live with scn := { live.scn with phase := p }, car := { live.car with running := none, ctxs := [(0, { ctx1 with st := .waiting })] } }

theorem witness_CyclePhases :
    (let s := idleIn .pad;
      s.calm = true ∧ s.bare = true ∧ s.scn.phase = .pad ∧ s.scn.domStop = false ∧ s.scn.tstart + s.scn.padMin ≤ s.clk.us)
    ∧ (let s := idleIn .input;
      s.calm = true ∧ s.bare = true ∧ s.scn.phase = .input ∧ s.scn.fires = [] ∧ s.scn.errTasks = [] ∧ s.car.latches = 0
        ∧ (s.ctx 0).st = .waiting)
    ∧ (let s := idleIn .output;
      s.calm = true ∧ s.bare = true ∧ s.scn.phase = .output ∧ s.scn.stopXfer = none) := by decide +kernel

theorem witness_HousekeepingEnds : ∀ stop ∈ [false, true],
    let s := { idleIn .housekeeping with scn := { (idleIn .housekeeping).scn with h1Done := true, stopReq := stop } }
    s.calm = true ∧ s.bare = true ∧ s.scn.phase = .housekeeping ∧ s.scn.h1Done = true ∧ s.car.running = none ∧ s.readySet = []
    ∧ 4 ≤ s.str.step ∧ s.str.halt = false ∧ s.pwr.sleep ≠ .asleep ∧ s.scn.domStop = false ∧ s.scn.stopReq = stop
    ∧ s.reg Reg.EXC_MCPEND = 0 ∧ s.lanternMasked = false ∧ s.core.lantern.slot = false
    ∧ s.log.queue.length < 17 := by decide +kernel

/-- The watchdog's budget and the cycle warning used up. -/
def late : State :=
  quiet { live with
    scn := { live.scn with wdFrom := 777, wdog := 0, cycwarn := 777 }
    car := { live.car with ctxs := [(0, { ctx1 with st := .ready }), (1, ctx1)] } }

theorem late_running : late.car.running = some 1 := by decide +kernel

theorem witness_CycleWatchdog :
    (late.calm = true ∧ late.bare = true ∧ late.scn.phase = .program)
    ∧ (∀ n, late.car.running = some n → n ≠ 0 ∧ (late.ctx n).plain = true)
    ∧ late.scn.wdExp = none ∧ late.scn.wdFrom + 1000 * fld late.scn.wdog 15 0 ≤ late.clk.us ∧ bit late.car.latches 112 = false
    ∧ late.silentClass 12 = true ∧ (late.ctx 0).st = .ready ∧ late.scn.cycwarn ≠ 0 ∧ late.scn.warned = false
    ∧ late.scn.tstart + late.scn.cycwarn ≤ late.clk.us ∧ bit late.car.latches 113 = false := by
  refine ⟨by decide +kernel, fun n h => ?_, by decide +kernel⟩
  rw [late_running] at h
  cases h
  decide +kernel

theorem witness_CycleWatchdog_grace : let s := { idleIn .program with
      scn := { (idleIn .program).scn with wdExp := some 777, wdog := 0 } }
    s.calm = true ∧ s.bare = true ∧ s.scn.phase = .program ∧ s.car.running = none ∧ s.scn.wdExp = some 777
    ∧ 777 + 1000 * fld s.scn.wdog 31 16 ≤ s.clk.us ∧ s.log.queue.length < 17 := by decide +kernel

/-- Station 31 of link 7, and the link. -/
def station (x : Stn) (l : Link) : State := { live with flk := { live.flk with stns := [(255, some x)], links := [(7, l)] } }
def stn0 : Stn := { w := 2, ibase := 4094, qbase := 4094, dir := [0, 0], wben := [0, 0], safev := [0, 0] }
def link0 : Link := { cfg := some 0x31, seq := 15, next := 31 }

theorem witness_LinkRequests : ∀ x ∈ [stn0, { stn0 with ident := true }, { stn0 with st := .up }, { stn0 with st := .pending }],
    let s := station x link0
    s.calm = true ∧ s.banks.ecc = [] ∧ s.bindings = [] ∧ s.inRun 9 = true ∧ s.inRun 7 = true ∧ s.imageHeld = false
    ∧ (s.link 7).cfg = some 0x31 ∧ bit (0x31 : Word) 0 = true ∧ (s.link 7).exch = none ∧ (s.link 7).held = none
    ∧ (s.link 7).strobe = none ∧ s.visits 7 = some 31 ∧ s.stn (32 * 7 + 31) = some x := by decide +kernel

theorem witness_LinkResponses : ∀ e ∈ [(0, StnSt.up), (0, .pending), (3, .down), (1, .down)],
    let x := { stn0 with st := e.2 }
    let s := station x { link0 with exch := some ⟨31, e.1, 15, false, 1, []⟩ }
    s.calm = true ∧ s.banks.ecc = [] ∧ s.inRun 9 = true ∧ s.inRun 7 = true ∧ s.imageHeld = false
    ∧ (s.link 7).exch = some ⟨31, e.1, 15, false, 1, []⟩ ∧ s.stn (32 * 7 + 31) = some x ∧ x.w ≤ 16 ∧ x.ibase + x.w ≤ 4096 := by
  decide +kernel

theorem witness_LinkResponses_timeout : let x := { stn0 with st := .up, miss := 1 }
    let s := quiet (station x { link0 with exch := some ⟨31, 0, 15, false, 0, []⟩ })
    s.calm = true ∧ s.inRun 9 = true ∧ s.banks.ecc = [] ∧ (s.link 7).cfg = some 0x31 ∧ s.stn 255 = some x ∧ x.st = .up
    ∧ (s.link 7).exch = some ⟨31, 0, 15, false, 0, []⟩ ∧ x.miss + 1 < fld (0x31 : Word) 7 4 ∧ s.silentClass 13 = true
    ∧ bit s.car.latches (4 * 7) = false := by decide +kernel

theorem witness_LinkResponses_held : let x := { stn0 with st := .up, live := true }
    let s := station x { link0 with held := some (31, [1, 2], none, true) }
    s.calm = true ∧ s.stn 255 = some x ∧ (s.link 7).held = some (31, [1, 2], none, true) ∧ ([1, 2] : List DWord).length = x.w
    ∧ x.ibase + x.w ≤ 4096 ∧ s.inRun 7 = true ∧ s.imageHeld = false := by decide +kernel

/-- Source 3 as a mains source, or as an encoder of 100 counts. -/
def source (scfg : Word) (x : Src) : State :=
  ((quiet { live with bea := { live.bea with srcs := [(3, x)] } }).setReg (Reg.BEA_SCFG + 0x30) scfg).setReg (Reg.BEA_CPR + 0x30) 100

def mains : Src := { ph := 2 ^ 30 - 256 * 500000, inc := 549756, first := false, good := 7, wraps := 2, lock := true }

theorem witness_BeatSources_mains :
    (let s := source 1 { mains with first := true };
      s.calm = true ∧ s.mainsRuns 3 = true ∧ (s.src 3).first = true)
    ∧ (let s := source 1 mains;
      let x := (s.src 3).advance 5;
      let e := (BitVec.ofNat 32 (x.ph / 256) - BitVec.ofNat 32 (s.reg (Reg.BEA_SOFF + 0x10 * 3)).toNat).toInt;
      s.calm = true ∧ s.mainsRuns 3 = true ∧ (s.src 3).first = false ∧ e.natAbs ≤ 2 ^ 22 ∧ 494780 ≤ (x.inc : Int) - e / 2 ^ 15
        ∧ (x.inc : Int) - e / 2 ^ 15 ≤ 714683 ∧ x.ph < 2 ^ 40 ∧ 2 ≤ (s.src 3).wraps ∧ (s.src 3).lock = true
        ∧ s.silentClass 16 = true) := by decide +kernel

/-- Source 3 an encoder with an index, and channel 15 set to its phase. -/
def counting : State :=
  let s := source 0xB { cnt := 99, prev := 2 ^ 32 - 1 }
  (s.setReg (Reg.BEA_CCFG + 0x20 * 15) 7).setReg (Reg.BEA_CMP + 0x20 * 15) (BitVec.ofNat 32 (s.phase 3))

theorem witness_BeatSources_encoder : let s := counting;
    s.calm = true ∧ s.beatRuns = true ∧ s.srcOn 3 = true ∧ s.isEncoder 3 = true ∧ s.f (Reg.BEA_CPR + 0x10 * 3) 23 0 = 100
    ∧ (s.src 3).cnt < 100 ∧ (s.src 3).a ≠ true ∧ (s.src 3).b = false ∧ bit (s.reg (Reg.BEA_SCFG + 0x10 * 3)) 3 = true
    ∧ s.f (Reg.BEA_CCFG + 0x20 * 15) 1 0 = 3 ∧ s.f (Reg.BEA_CCFG + 0x20 * 15) 3 2 = 1 ∧ (s.src 3).rev = false
    ∧ inStep (s.src 3).prev (s.phase 3) (s.reg (Reg.BEA_CMP + 0x20 * 15)).toNat = true ∧ bit s.bea.done 15 = false
    ∧ bit s.car.latches 47 = false ∧ Map.get (fun _ => none) s.bea.caps 15 = none
    ∧ (live.beatRuns && live.srcOn 3 && live.isEncoder 3) = false := by decide +kernel

/-- Binding 7 of channel 15 for a point of station 31 of link 7, its value ready; source 0 an encoder or a mains source. -/
def boundTo (enc : Bool) : State :=
  let s := (station { stn0 with st := .up, live := true, dir := [0xFFFF, 0xFFFF] } { link0 with exch := none }).setReg
    (Reg.BEA_BIND + 28) (BitVec.ofNat 32 (64 * 4094 + 5 + 15 * 2 ^ 18 + 2 ^ 23))
  let s := ((s.setReg (Reg.BEA_CCFG + 0x20 * 15) 0x0000008C).setReg Reg.BEA_SCFG (if enc then 3 else 1)).setReg Reg.BEA_CPR 100
  { s with bea := { s.bea with
    ready := setBit 0 7 true, isReady := setBit 0 7 true, since := [(7, some 777)]
    srcs := [(0, if enc then { cnt := 90, interval := 3 } else { lock := true, inc := 549756 })] } }

def bound : State := boundTo true

theorem witness_StrobesAndGovernor_strobe :
    (∀ enc ∈ [true, false], let s := boundTo enc;
      s.calm = true ∧ s.gov = {} ∧ s.strobeDue 15 7 = true ∧ s.lowerStrobe 15 7 = false ∧ (s.link 7).exch = none
        ∧ (s.link 7).strobe = none ∧ s.isEncoder (s.f (Reg.BEA_CCFG + 0x20 * 15) 1 0) = enc
        ∧ (enc = false → s.startPt 15 7 = none ∧ (s.untilStrobe 15 7).any (fun r => decide (0 ≤ r)) = true))
    ∧ (∀ p ∈ [StartPt.may, .after], let s0 := boundTo true
      let s := { s0 with bea := { s0.bea with starts := [(15, 7, p)] } };
      s.calm = true ∧ s.gov = {} ∧ s.strobeDue 15 7 = true ∧ (s.link 7).exch = none ∧ (s.link 7).strobe = none
        ∧ s.isEncoder (s.f (Reg.BEA_CCFG + 0x20 * 15) 1 0) = true ∧ s.startPt 15 7 = some p)
    ∧ bound.phased.any (fun b => decide (b.k = 7) && decide (b.chan = 15)
      && decide (777 + 1000 * bound.f (Reg.BEA_CCFG + 0x20 * b.chan) 31 16 ≤ bound.clk.us)) = true
    ∧ bound.inRun 9 = true ∧ Map.get (fun _ => none) bound.bea.since 7 = some 777
    ∧ bound.f (Reg.BEA_CCFG + 0x20 * 15) 7 7 = 1 := by decide +kernel

theorem witness_StrobesAndGovernor_end :
    let s := { live with flk := { live.flk with links := [(7, { link0 with strobe := some (15, [(255, true)], []) })] } }
    s.calm = true ∧ s.gov = {} ∧ (s.link 7).strobe = some (15, [(255, true)], []) ∧ s.inRun 9 = true := by decide +kernel

/-- Member 4095 on a point of station 31 of link 7, energised. -/
def governed (mode : Mode) (gcfg : Word) : State :=
  let s := station { stn0 with st := .up, live := true, dir := [0xFFFF, 0xFFFF], safeAt := [777] } link0
  let s := { s with
    gov := { s.gov with tab := [(4095, BitVec.ofNat 32 (64 * 4094 + 5 + 3 * 2 ^ 18 + 2 ^ 26))], e := [(4095, true)] }
    scn := { s.scn with mode := mode } }
  put ((s.setReg (Reg.GOV_GCFG + 0x10 * 63) gcfg).setReg Reg.GOV_CTRL 1) (shStatAddr 511) (toBytes (2 ^ 48) 8)

theorem witness_StrobesAndGovernor_member : let s := governed .run 5
    (∃ m, s.members = [m] ∧ m.i = 4095 ∧ m.pin.key = 255) ∧ s.energised 4095 = true ∧ s.banks.ecc = [] ∧ s.bcn.role = 0 ∧ s.bcn.resync = .none
    ∧ (∃ x, s.stn 255 = some x ∧ x.safeAt = 777 :: []) ∧ 777 ≤ s.clk.us := by
  refine ⟨⟨_, rfl, by decide +kernel, by decide +kernel⟩, by decide +kernel, by decide +kernel, by decide +kernel, by decide +kernel, ⟨_, rfl, by decide +kernel⟩, by decide +kernel⟩

theorem witness_StrobesAndGovernor_sag : ∀ e ∈ [(Mode.stop, 5, 0), (.hold, 0x105, 1)], let s := governed e.1 (BitVec.ofNat 32 e.2.1)
    (s.members.all fun m => decide (m.i < 4096) && decide (m.bnd = none) && decide (m.point < 2 ^ 18) && decide (m.g = 63)
      && !(s.grp m.g).sag && bit (s.shStat (256 + m.pin.key)) (48 + m.pin.unit)) = true
    ∧ s.members.length = 1 ∧ s.energised 4095 = true ∧ s.scn.mode = e.1 ∧ s.govOn = true ∧ s.inRun 7 = true
    ∧ (∀ g, g < 64 → g ≠ 63 → (s.grp g).sag = false) ∧ s.f (Reg.GOV_GCFG + 0x10 * 63) 9 8 = e.2.2 := by decide +kernel

/-! ### The statements about the pair, the cascade, debug, power and the start meet states -/

/-- A block of a pair, in the input transfer of a cycle. -/
def paired (b : Bcn) : State :=
  { live with bcn := b, scn := { live.scn with phase := .input, cyc := 70000 }, clk := { live.clk with us := 50000 } }

def standby : State :=
  ((paired { role := 4, rxlock := true, expect := some 65535, sync := true, busSeen := some 49999 }).setReg Reg.BCN_REPL
    0x00100010).setReg Reg.BCN_TIME 0x00640064

theorem witness_BeaconReceives_standby : let s := standby
    let b : Bcn := { s.bcn with lastRx := some s.clk.us, expect := some ((65535 + 1) % 65536) }
    s.bcn.rxlock = true ∧ s.inRun 10 = true ∧ s.bcn.role = 4 ∧ s.bcn.taking = false ∧ s.bcn.expect = some 65535 ∧ s.bcn.held = []
    ∧ s.scn.mode = .run ∧ s.scn.phase = .input ∧ s.bcn.deltas.length + 1 < s.f Reg.BCN_REPL 23 16
    ∧ fld (((s.bcn.deltas ++ [[0, 0x500000000, 0, 0]]).headD []).getD 1 0) 63 32 ≠ 0 ∧ bit (7 : DWord) 48 = false
    ∧ (∀ r ∈ s.bcn.hks, r.cyc ≠ 65535) ∧ fld (1 : DWord) 1 0 = 1 ∧ fld (0x80 : DWord) 7 0 = 0x80
    ∧ ({ s with bcn := b } : State).busLive = true ∧ s.bcn.decided = none := by decide +kernel

theorem witness_BeaconReceives_state : let s := paired { role := 2, rxlock := true }
    s.bcn.rxlock = true ∧ s.inRun 10 = true ∧ s.bcn.held = [] ∧ s.bcn.resync = .none ∧ s.traceOn = false ∧ s.bcn.role = 2
    ∧ s.bcn.hello = none ∧ (List.replicate 512 (3 : DWord)).length = 512 ∧ 0x6BF000 + 4096 ≤ 0x6C0000 ∧ 0x6BF000 % 4096 = 0
    ∧ s.banks.ecc = [] ∧ fld (1 : DWord) 2 0 = 1 ∧ s.holdsPartner [1, 5] = false := by decide +kernel

theorem witness_BeaconReceives_primary : let s := paired { role := 1, rxlock := true, partnerMode := 1 }
    s.bcn.partnerMode = 1 ∧ s.bcn.rxlock = true ∧ s.bcn.role = 1 ∧ s.scn.mode = .run ∧ fld (1 : DWord) 2 0 = 1 ∧ bit (0x100000 : DWord) 16 = false
    ∧ fld (0x100000 : DWord) 23 20 ≠ 0 := by decide +kernel

theorem witness_BeaconReceives_taken : let s := { standby with scn := { standby.scn with mode := .stop } }
    s.bcn.rxlock = true ∧ s.inRun 10 = true ∧ s.bcn.held = [] ∧ s.bcn.resync = .none ∧ s.traceOn = false ∧ s.bcn.role = 4
    ∧ s.scn.mode = .stop ∧ s.bcn.expect = some 65535 ∧ s.hst.jobs = [] := by decide +kernel

theorem witness_BeaconSends :
    (∀ r ∈ [1, 2, 3, 4], let s := paired { role := r, rxlock := true, seq := 65535, sync := decide (r = 1 ∨ r = 4), lastTx := 49992 };
      s.beaconSends = true ∧ s.bcn.role ≤ 4 ∧ s.bcn.retain.foldl (fun n f => n + f.bytes) 0 + 100 ≤ 131072
        ∧ s.bcn.lastTx + 8 ≤ s.clk.us)
    ∧ (let s := { paired { role := 1, rxlock := true, sync := true, lastHzn := 3 } with car := { live.car with retired := 4 } };
      s.beaconSends = true ∧ s.scn.mode = .run ∧ s.car.retired ≠ s.bcn.lastHzn ∧ s.car.pre.length ≤ s.bcn.relSent)
    ∧ (let s := paired { role := 1 };
      s.beaconSends = true ∧ s.bcn.sync = false ∧ s.bcn.rxlock = false) := by decide +kernel

/-- A primary that resynchronises its partner, with dirty pages. -/
def resyncing (b : Bcn) : State := (paired b).setReg Reg.BCN_RSYNC 0x408

theorem witness_ResyncAndTakeover_passes :
    (let s := resyncing { role := 1, rxlock := true, resync := .bulk, dirty := [1] };
      s.traceOn = false ∧ s.bcn.resync = .bulk ∧ s.beaconSends = true)
    ∧ (∀ e ∈ [(2, true), (3, false)], let s := resyncing { role := 1, resync := .converge, dirty := List.range e.1, passes := 2 };
      s.traceOn = false ∧ s.bcn.resync = .converge ∧ s.bcn.passSet = [] ∧ s.scn.mode = .run
        ∧ decide (4 * s.bcn.dirty.length ≤ s.f Reg.BCN_RSYNC 7 0) = e.2 ∧ s.bcn.passes + 1 < s.f Reg.BCN_RSYNC 11 8) := by decide +kernel

def partnerHello : List DWord := (paired { role := 2 }).helloWords

def toRetry : State := paired { role := 1, hello := some partnerHello, retryAt := some 50000 }

theorem toRetry_byte : (paired { role := 2 }).byte = toRetry.byte := rfl

theorem stores_alike (s : State) (h : List DWord) (m : h.getD 2 0 = s.helloWords.getD 2 0) (e : h.getD 3 0 = s.helloWords.getD 3 0) :
    s.sameStores h = true := by
  simp only [State.sameStores, m, e, beq_self_eq_true, Bool.and_self]

theorem holds_alike (s : State) (h : List DWord) (a : s.str.gen ≠ 0) (b : s.sameStores h = true) (c : helloGen h = s.str.gen)
    (d : h.getD 1 0 = digest8 s.str.genDigest) : s.partnerHolds h = true := by
  simp only [State.partnerHolds, b, c, d, beq_self_eq_true, Bool.and_self, Bool.true_or, Bool.and_true, decide_eq_true_eq]
  exact a

theorem toRetry_holds : toRetry.partnerHolds partnerHello = true := by
  have d : digest8 (sha256 ((rangeFrom 0x708000 0x34000).map (paired { role := 2 }).byte))
      = digest8 (sha256 ((rangeFrom 0x708000 0x34000).map toRetry.byte)) := by rw [toRetry_byte]
  exact holds_alike _ _ (by decide +kernel) (stores_alike _ _ (by decide +kernel) d) (by decide +kernel) (by decide +kernel)

theorem witness_ResyncAndTakeover_retry :
    (toRetry.traceOn = false ∧ toRetry.bcn.retryAt = some 50000 ∧ 50000 ≤ toRetry.clk.us
      ∧ fld (partnerHello.getD 0 0) 2 0 = 2 ∧ toRetry.bcn.resync = .none ∧ toRetry.bcn.sync = false ∧ toRetry.scn.mode = .run)
    ∧ toRetry.bcn.hello = some partnerHello ∧ toRetry.partnerHolds partnerHello = true :=
  ⟨by decide +kernel, rfl, toRetry_holds⟩

/-- A standby that has heard nothing for long, and the bus last seen at a time or never. -/
def silent (seen decided : Option Nat) : State :=
  ((paired { role := 4, rxlock := true, lastRx := some 5, busSeen := seen, decided := decided }).setReg Reg.BCN_TIME 0x00640064).setReg
    Reg.BCN_CFG 2

theorem witness_ResyncAndTakeover :
    (∀ q ∈ [none, some 49950], let s := silent q none;
      s.traceOn = false ∧ s.bcn.role = 4 ∧ s.bcn.taking = false ∧ s.bcn.decided = none ∧ s.f Reg.BCN_CFG 1 1 = 1 ∧ 5 + s.sil ≤ s.clk.us
        ∧ s.scn.mode = .run ∧ s.scn.phase = .input ∧ s.busLive = q.isSome)
    ∧ (let s := silent (some 49900) (some 60);
      s.bcn.decided = some 60 ∧ s.scn.mode = .run ∧ s.bcn.busSeen = some 49900 ∧ 49900 + s.f Reg.BCN_TIME 31 16 ≤ s.clk.us)
    ∧ (let s := { silent (some 49950) (some 60) with scn := { live.scn with mode := .stop } };
      s.bcn.decided = some 60 ∧ s.scn.mode = .stop ∧ s.busLive = true
        ∧ 60 + s.sil + s.f Reg.BCN_TIME 31 16 ≤ s.clk.us) := by decide +kernel

theorem witness_ResyncAndTakeover_entry : let e : PreIn := ⟨4464, 9, 63, 0, 50, false, none⟩
    let s := { paired { role := 4, entries := [e] } with
      scn := { (paired {}).scn with phase := .output }
      car := { live.car with retired := 9, running := none, ctxs := [(63, { ctx1 with st := .waiting })] } }
    s.bcn.role = 4 ∧ s.bcn.taking = false ∧ s.scn.mode = .run ∧ s.scn.phase = .output ∧ s.traceOn = false ∧ s.car.running = none
    ∧ s.bcn.entries = e :: [] ∧ e.cyc = s.scn.cyc % 65536 ∧ e.count = s.car.retired ∧ (s.ctx e.ctx).st = .waiting := by decide +kernel

/-- A member of a cascade, by its CHAIN_ID, in the pad. -/
def member (me : Nat) : State :=
  let s := { live with
    scn := { live.scn with phase := .pad }, clk := { live.clk with us := 500000 }, chn := { rxlock := true, rnd := 2 ^ 32 - 1 } }
  ((s.setReg Reg.CHN_CFG 0x1FF).setReg Reg.PWR_STRAP (BitVec.ofNat 32 me)).setReg Reg.CHN_TIME 0x00100010

theorem witness_ChainRows : ∀ me ∈ [0, 7], let s := member me
    s.chainOn = true ∧ s.pwr.por = false ∧ s.f Reg.PWR_STRAP 2 0 = me ∧ s.chn.rxlock = true ∧ s.chn.token = none ∧ s.scn.mode = .run
    ∧ s.scn.phase = .pad ∧ max s.scn.hkEnd (s.scn.tstart + s.scn.padMin) + s.f Reg.CHN_TIME 15 0 ≤ s.clk.us
    ∧ s.scn.hkEnd + s.f Reg.CHN_TIME 31 16 ≤ s.clk.us ∧ (List.replicate 64 (0 : DWord)).length = 64 := by decide +kernel

/-- A debugger connected, at a level. -/
def debugged (level : Nat) : State :=
  { live with dbg := { live.dbg with conn := true, grant := some ⟨level, true, 0, 9⟩ } }

theorem witness_DebugRequests : ∀ l ∈ [0, 1, 2], let s := debugged l
    s.inRun 11 = true ∧ s.banks.ecc = [] ∧ s.core.sb = [] ∧ (s.dom 6).st = .run ∧ s.dbg.conn = true ∧ s.dbg.req = none
    ∧ s.dbgLevel = l ∧ s.dbg.ctx = none ∧ s.bcn.resync = .none ∧ 0x5FFFFC < 0x600000 := by decide +kernel

theorem witness_DebugRequests_repeated :
    let s := { debugged 2 with dbg := { (debugged 2).dbg with req := some ⟨15, 4, 0x400000, 5⟩, resp := some (0, none) } }
    s.inRun 11 = true ∧ s.dbg.conn = true ∧ s.dbg.req = some ⟨15, 4, 0x400000, 5⟩ ∧ s.dbg.resp = some (0, none) := by decide +kernel

theorem witness_DebugHalts :
    (∀ l ∈ [1, 2], let s := debugged l;
      s.inRun 11 = true ∧ s.traceOn = false ∧ s.bare = true ∧ s.bcn.role = 0 ∧ s.bcn.resync = .none ∧ s.pwr.por = false
        ∧ s.dbg.conn = true ∧ s.dbg.req = none ∧ s.dbgLevel = l ∧ s.core.halt ≠ .debug ∧ s.dbg.hreq = none)
    ∧ (let s := { debugged 2 with dbg := { (debugged 2).dbg with hreq := some (0, 0) } };
      s.dbg.hreq = some (0, 0) ∧ s.calm = true ∧ s.scn.phase = .program ∧ s.core.sb = [] ∧ s.log.queue.length < 17
        ∧ s.car.running = some 1 ∧ (s.ctx 1).lkc = 0 ∧ (s.ctx 1).slot = .none ∧ (s.ctx 1).load = none ∧ (s.ctx 1).chain = false
        ∧ s.lanternMasked = false ∧ s.scn.hsafe = false ∧ s.dbg.req = none)
    ∧ (let s := { debugged 2 with
        dbg := { (debugged 2).dbg with back := .run, ctx := some 1, wdLeft := some 5 }
        core := { live.core with halt := .debug }, scn := { live.scn with mode := .hold } };
      s.core.halt = .debug ∧ s.dbg.back = .run ∧ s.scn.mode = .hold ∧ s.scn.phase = .program ∧ s.dbg.step = none ∧ s.dbgLevel = 2
        ∧ s.dbg.ctx = some 1 ∧ s.car.running = some 1 ∧ s.bare = true ∧ s.log.queue.length < 17 ∧ bit s.car.latches 118 = false)
    ∧ (let s := { debugged 2 with dbg := { (debugged 2).dbg with step := some 1, stepDone := true } };
      s.dbg.step = some 1 ∧ s.dbg.stepDone = true ∧ s.core.sb = [] ∧ s.dbg.req = none ∧ s.bare = true)
    ∧ (let s := ops2 [] [] 0x01000280;
      s.inRun 11 = true ∧ s.traceOn = false ∧ s.bare = true ∧ s.scn.mode = .run ∧ s.core.halt = .none
        ∧ s.core.lantern.slot = false ∧ s.car.running = some 1 ∧ bit (s.ctx 1).sw 9 = true) := by decide +kernel

/-- A record in the writer's queue. -/
def logging (stat : Word) (code : Nat) (side : Nat) : State :=
  let r : LogRec := ⟨5, 6, code, 0x10, [1]⟩
  (({ live with log := { live.log with queue := [r], side := List.replicate side r } } : State).setReg Reg.LOG_STAT stat).setReg
    Reg.LOG_HEAD 0x010000FF

theorem witness_LogAndWatchdog_append : ∀ e ∈ [(0, 4, 0), (1, 0x8050, 7), (2, 0x8050, 8), (3, 4, 0)],
    let s := logging (BitVec.ofNat 32 e.1) e.2.1 e.2.2
    s.calm = true ∧ s.log.queue = [⟨5, 6, e.2.1, 0x10, [1]⟩] ∧ s.f Reg.LOG_STAT 1 0 = e.1 ∧ s.log.side.length = e.2.2
    ∧ s.f Reg.LOG_HEAD 24 16 ≤ 256 := by decide +kernel

theorem witness_LogAndWatchdog :
    (let s := live.setFltEnt 15 511 { lasting := true };
      s.calm = true ∧ (s.fltEnt 15 511).lasting = true)
    ∧ (let s := quiet { live with flt := { live.flt with ft := 700000, wdtFrom := 200000 } };
      s.calm = true ∧ s.flt.wdtWarned = false ∧ s.dbg.wdLeft = none ∧ s.flt.wdtFrom + s.flt.wdtLimit / 2 ≤ s.flt.ft
        ∧ s.log.queue.length < 17 ∧ bit s.car.latches 114 = false ∧ s.silentClass 20 = true)
    ∧ fld (0xA5000001 : Word) 31 24 = 0xA5 ∧ bit (0xA5000001 : Word) 0 = true := by decide +kernel

theorem witness_Resets :
    (let s := { live with str := { live.str with failed := true }, flt := { live.flt with ft := 1000000 } };
      s.pwr.por = false ∧ s.str.failed = true ∧ s.dbg.wdLeft = none ∧ s.flt.wdtFrom + s.flt.wdtLimit ≤ s.flt.ft ∧ 4 ≤ s.str.step
        ∧ s.str.halt = false ∧ s.pwr.sleep ≠ .asleep ∧ s.core.halt ≠ .stranded ∧ s.core.halt ≠ .lockup)
    ∧ fld (0xA5010000 : Word) 31 24 = 0xA5 ∧ bit (0xA5010000 : Word) 16 = true
    ∧ (let s := ({ live with pwr := { live.pwr with sleep := .asleep, sleepAt := 746 } } : State).setReg Reg.PWR_WAKE 0x3F;
      s.pwr.por = false ∧ s.pwr.sleep = .asleep ∧ (∀ k, k < 16 → 12 ≤ k → bit (s.reg Reg.PWR_WAKE) (k - 12) = true)
        ∧ bit (s.reg Reg.PWR_WAKE) 4 = true ∧ bit (s.reg Reg.PWR_WAKE) 5 = true
        ∧ s.pwr.sleepAt + (s.reg Reg.PWR_ALARM).toNat * 1000000 / 32768 ≤ s.clk.us) := by decide +kernel

/-- `live` with one domain as given. -/
def domain (n : Nat) (d : Dom) : State := quiet (live.setDom n d)

theorem witness_PowerDomains :
    (∀ d ∈ [({ st := .waking } : Dom), { st := .reset true }, { st := .reset false }, { st := .falling 1 }, { st := .run }],
      ∀ n ∈ [1, 8, 11], let s := domain n d;
        s.dom n = d ∧ s.hst.jobs = [] ∧ s.bcn.role = 0 ∧ s.bcn.resync = .none ∧ s.pwr.por = false ∧ s.log.queue.length < 17
          ∧ 3 < s.str.step)
    ∧ (∀ d ∈ [({ st := .reset true } : Dom), { st := .reset false }], ∀ n ∈ [7, 9], let s := domain n d;
        s.dom n = d ∧ s.flk.stns = [] ∧ s.flk.hfs = [] ∧ s.banks.ecc = [] ∧ Map.wf resetValue s.flk.copy = true ∧ s.log.queue.length < 17)
    ∧ (∀ d ∈ [({ st := .reset true } : Dom), { st := .reset false, dozeAfter := true }],
        let s := { domain 8 d with str := { live.str with step := 3 } };
        s.dom 8 = d ∧ s.hst.jobs = [] ∧ s.str.step ≤ 3)
    ∧ (∀ d ∈ [({ st := .waking } : Dom), { st := .falling 0, ack := true }, { st := .run }, { st := .doze }],
        ∀ n ∈ [1, 11], let s := domain n d;
        (s.dom n).ackAwaited = true ∧ (s.dom n).late = false ∧ (s.dom n).since + s.f Reg.PWR_TACK 7 0 ≤ s.clk.us ∧ s.str.step ≠ 2
          ∧ s.silentClass 6 = true)
    ∧ (let s := { domain 10 { st := .dozing } with str := { live.str with gen := 0 } };
      (s.dom 10).st = .dozing ∧ s.required 10 = false ∧ s.core.held = none)
    ∧ (let s := { domain 7 { st := .dozing } with scn := { live.scn with mode := .stop } };
      (s.dom 7).st = .dozing ∧ s.scn.mode = .stop ∧ s.flk.stns = [] ∧ s.core.held = none)
    ∧ (let s := domain 11 { st := .dozing };
      (s.dom 11).st = .dozing ∧ s.core.halt = .none ∧ s.core.held = none)
    ∧ (4 ≤ live.str.step ∧ live.str.halt = false ∧ live.pwr.sleep ≠ .asleep ∧ live.core.halt ≠ .stranded ∧ live.core.halt ≠ .lockup
      ∧ live.reg Reg.PWR_CTRL = 0 ∧ live.required 10 = false ∧ bit live.clk.lost 7 = false ∧ live.pwr.sleep = .awake) := by
  decide +kernel

theorem witness_PowerDomains_all : ∀ m, 1 ≤ m → m ≤ 11 → live.dom m = { st := .run, ack := true } :=
  from_one 11 (by decide +kernel)

theorem witness_PinsAndClocks :
    (let s := { live with pwr := { live.pwr with sleep := .entering }, str := { live.str with gen := 0 } };
      s.calm = true ∧ s.pwr.sleep = .entering ∧ s.flk.stns = [] ∧ s.hst.jobs = [] ∧ s.log.queue.length < 17)
    ∧ bit ((live.setReg Reg.LOG_CTRL 1).reg Reg.LOG_CTRL) 1 = false
    ∧ (let s := (live.setReg Reg.LOG_CTRL 2).setDom 8 { st := .off };
      s.calm = true ∧ bit (s.reg Reg.LOG_CTRL) 1 = true ∧ bit (s.reg Reg.LOG_STAT) 1 = false ∧ s.log.queue = [] ∧ s.log.side.length < 8
        ∧ s.inRun 8 = false)
    ∧ (let s := { live with pwr := { live.pwr with pfail := true } };
      s.calm = true ∧ s.pwr.pfail = true ∧ bit (s.reg Reg.LOG_STAT) 1 = false ∧ ∀ m, m < 12 → (s.dom m).wake = false)
    ∧ (let s := (quiet live).setReg Reg.CLK_MON 0x3C;
      s.calm = true ∧ (∀ k, k < 16 → bit s.car.latches (64 + k) = false)
        ∧ (∀ k, k < 6 → 3 ≤ k → bit (s.reg Reg.CLK_MON) k = true ∧ bit s.clk.lost k = false) ∧ s.silentClass 7 = true) := by decide +kernel

/-- Counts in every clock's range. -/
def goodCounts : List Nat := (List.range 7).map fun k => ((clockRange k).1 + 10000) / 4096 + 1

theorem witness_PinsAndClocks_window : live.pwr.flStopped = false ∧ ∀ k, k < 7 → inRange k (goodCounts.getD k 0) = true := by
  decide +kernel

/-- The start sequence at a step. -/
def starting (n : Nat) (st : DomSt) : State :=
  quiet { live with
    scn := {}, car := {}, str := { live.str with step := n, entered := 3, cold := true, cfg := 0x10000 }
    pwr := { live.pwr with doms := (List.range 11).map fun n => (n + 1, { st := st }) } }

theorem witness_StartToTheRing :
    (let s := starting 1 .held;
      s.pwr.por = false ∧ s.scn.mode = .none ∧ s.bcn.role = 0 ∧ s.bcn.resync = .none ∧ s.str.step = 1 ∧ s.pwr.flStopped = false
        ∧ (∀ k, k < 7 → inRange k (goodCounts.getD k 0) = true) ∧ (∀ n, n < 12 → 1 ≤ n → (s.dom n).st = .held)
        ∧ s.silentClass 17 = true ∧ s.log.queue.length < 17)
    ∧ (∀ l ∈ [1, 0x40, 0x80, 0x81], let s := { starting 1 .held with clk := { live.clk with us := 100000, lost := BitVec.ofNat 8 l } };
      s.str.step = 1 ∧ s.silentClass 17 = true ∧ s.log.queue.length < 17 ∧ s.str.waitFrom + 100000 ≤ s.clk.us
        ∧ (bit s.clk.lost 0 || bit s.clk.lost 6 || bit s.clk.lost 7) = true ∧ (bit s.clk.lost 6 && bit s.clk.lost 7) = false)
    ∧ (∀ k ∈ [2, 3, 4], let s := starting k .run;
      s.str.step = k ∧ s.str.halt = false ∧ s.str.cold = true ∧ s.str.s4Ended = false ∧ fld s.str.cfg 31 16 ≠ 0
        ∧ (∀ n, n < 12 → 1 ≤ n → (s.dom n).st = .run) ∧ s.pwr.sleep ≠ .asleep ∧ s.core.halt = .none)
    ∧ fld (0xA5000400 : Word) 31 24 = 0xA5 := by decide +kernel

/-- A patch blob for key slot 0 without records, signed by the key whose digest is `keyDigest`. -/
def blobEmpty : List Byte := toBytes 0x4E649E1160B052223923DB96A4A70376621A5EDDBC8EBDFD0B1DCA3514643D7864ADD8FC5D7F29A635576D32A3AFAEC1CD193A925079ADDF0AB7B9DC3BE1D2710000000000000000E6D07258747040BF316F4B74055205E75AD24D70670C150D33BBC79CDE8B239012D8DAF9E921F9F9C99C645B9433F7B222913A8BE18791664AE3E90EBDCEEF260000000000000000000000000000000000000000000000000000000000000008000000000000004D000000014250584B 184

/-- The same with one record: control-store word 100 becomes 0x123456. -/
def blobWord : List Byte := toBytes 0xA49844C4C66BA5F308DA0EA4ABE1BA67BE74B1D58BA4B95B03DE8821D458F4FE64ADD8FC5D7F29A635576D32A3AFAEC1CD193A925079ADDF0AB7B9DC3BE1D271000000000000000000000000001234560000006400010001E6D07258747040BF316F4B74055205E75AD24D70670C150D33BBC79CDE8B239012D8DAF9E921F9F9C99C645B9433F7B222913A8BE18791664AE3E90EBDCEEF260000000000000000000000000000000000000000000000000000000000000018000000000000004D000000014250584B 200

/-- The SHA-256 of the test key. -/
def keyDigest : List Byte := toBytes 0x31801ACFDE846D0985AED2B3C39217F8B0CBC4905819ACA7E35FDCF336CFC1CB 32

/-- An expert authorisation, a debug certificate and a log-clear authorisation, signed by that key. -/
def expertAuth : List Byte := toBytes 0xA550FD689F1D7218F869B8329C7E7622744A55104F5A0CD5E6F856B8B660DB064ADD8FC5D7F29A635576D32A3AFAEC1CD193A925079ADDF0AB7B9DC3BE1D271E6D07258747040BF316F4B74055205E75AD24D70670C150D33BBC79CDE8B239012D8DAF9E921F9F9C99C645B9433F7B222913A8BE18791664AE3E90EBDCEEF2600000001000000641122334455667788 144

def certificate : List Byte := toBytes 0x9C8096C960697A44A5A8AFD0063B00A5085E0AC92B5E791BC89B38D6EBBEEBA864ADD8FC5D7F29A635576D32A3AFAEC1CD193A925079ADDF0AB7B9DC3BE1D271E6D07258747040BF316F4B74055205E75AD24D70670C150D33BBC79CDE8B239012D8DAF9E921F9F9C99C645B9433F7B222913A8BE18791664AE3E90EBDCEEF260009000300000001020200014744424B 144

def clearAuth : List Byte := toBytes 0xD8E117AD2DC0D67F55BD9531FC2343FE0AEF1415959E99D73C02E84AE5E325DB64ADD8FC5D7F29A635576D32A3AFAEC1CD193A925079ADDF0AB7B9DC3BE1D271E6D07258747040BF316F4B74055205E75AD24D70670C150D33BBC79CDE8B239012D8DAF9E921F9F9C99C645B9433F7B222913A8BE18791664AE3E90EBDCEEF26000000070000003700030001434C474B 144

/-- The start sequence from S4 on, with the test key in every slot. -/
def opening (n : Nat) : State :=
  let s := starting n .run
  { s with str := { s.str with digests := keyDigest ++ keyDigest ++ keyDigest ++ keyDigest } }

/-- The start sequence at step n with a blob staged. -/
def staged (n : Nat) (b : List Byte) (res : Option Nat) : State :=
  let s := put (opening n) 0x400000 b
  { s with str := { s.str with blobs := [⟨3, b.length, res⟩] }, hst := { s.hst with jobs := [⟨3, 0x10, []⟩] } }

theorem witness_StartFromTheRing :
    (let s := { opening 4 with str := { (opening 4).str with decided := true }, clk := { live.clk with us := 1000 } };
      s.pwr.por = false ∧ s.scn.mode = .none ∧ s.bcn.role = 0 ∧ s.bcn.resync = .none ∧ s.str.failed = false
        ∧ s.silentClass 17 = true ∧ s.log.queue.length < 16 ∧ s.banks.ecc = [] ∧ s.str.step = 4 ∧ s.str.s4Ended = false
        ∧ s.str.decided = true ∧ s.str.blobs = [] ∧ bit s.str.cfg 3 = false ∧ s.str.stepFrom + 1000 * fld s.str.cfg 31 16 ≤ s.clk.us
        ∧ s.str.s4Wait = 0)
    ∧ (let s := { opening 7 with str := { (opening 7).str with gen := 1 } };
      s.str.step = 7 ∧ s.str.gen ≠ 0 ∧ s.str.alts / 2 ^ 8 % 2 = 0 ∧ s.banks.ecc = []) := by decide +kernel

theorem witness_StartFromTheRing_blob : let s := staged 5 blobEmpty none
    let b := (s.blobBytes 0 (blobLen (s.blobBytes 0 112).1 + 176)).1
    s.str.step = 5 ∧ s.str.blobs = [⟨3, b.length, none⟩] ∧ s.hst.jobs = [⟨3, 0x10, []⟩] ∧ blobHeaderOk b = true ∧ blobEnc b = false
    ∧ blobOem b = false
    ∧ (match patchRecs false (blobLen b / 8 + 1) (blobPayload b) with
      | .ok l => l.all recFormat
      | .error _ => false) = true := by decide +kernel

theorem witness_StartFromTheRing_signed : let s := staged 5 blobEmpty none
    let b := (s.blobBytes 0 (blobLen (s.blobBytes 0 112).1 + 176)).1
    s.keyCheck (blobSlot b) ((b.drop 48).take 64) (b.drop (b.length - 64)) (b.take (b.length - 64)) = 0 := by decide +kernel

theorem witness_StartFromTheRing_bad : let s := staged 5 (blobEmpty.set 4 3) none
    let b := (s.blobBytes 0 (blobLen (s.blobBytes 0 112).1 + 176)).1
    s.str.step = 5 ∧ s.str.blobs = [⟨3, b.length, none⟩] ∧ blobHeaderOk b = false := by decide +kernel

theorem witness_StartFromTheRing_apply : let s := staged 6 blobWord (some 0)
    let b := (s.blobBytes 0 (blobLen (s.blobBytes 0 112).1 + 176)).1
    s.str.step = 6 ∧ s.str.blobs = [⟨3, b.length, some 0⟩] ∧ 0x123456 < 2 ^ 28
    ∧ (match patchRecs (blobOem b) (blobLen b / 8 + 1) (blobPayload b) with
      | .ok l => decide (l = [⟨1, 100, 1, toBytes 0x123456 4⟩])
      | .error _ => false) = true := by decide +kernel

/-- S8 with a generation of 40 bytes, its digest right or wrong. -/
def verifying (d : List Byte) : State :=
  let s := put (opening 8) 0 (blobEmpty.take 40)
  ({ s with str := { s.str with gen := 1, genLen := 40, genDigest := d, cfg := 0 } } : State).setReg Reg.BCN_CFG 0

theorem witness_StartFromTheRing_code :
    (let s := verifying (sha256 (blobEmpty.take 40));
      s.str.step = 8 ∧ s.str.gen = 1 ∧ (s.dom 4).st = .run ∧ s.str.mapout = 0 ∧ s.str.genLen ≤ 0x200000
        ∧ sha256 (s.genBytes 1 s.str.genLen) = s.str.genDigest ∧ fld s.str.cfg 1 0 = 0 ∧ s.reg Reg.BCN_CFG = 0 ∧ s.flk.stns = []
        ∧ s.scn.staged = [] ∧ s.hst.jobs = [] ∧ s.traceOn = false)
    ∧ (let s := verifying [];
      sha256 (s.genBytes 1 s.str.genLen) ≠ s.str.genDigest) := by decide +kernel

/-! ### The statements about the host port, registers and host commands meet states -/

theorem witness_HostPort : let s := { live with hst := { live.hst with slots := [(3, { st := 3 }), (15, { st := 3, consumed := true })] } }
    (s.calm = true ∧ s.banks.ecc = [] ∧ (s.dom 8).st = .run ∧ (s.dom 11).st = .run ∧ (s.dom 2).st = .run ∧ (s.dom 1).st = .run
      ∧ s.reg Reg.MEM_MAPOUT = 0)
    ∧ s.coreWroteWord (0x6C0000 + 4 * 0xFFFF) = false
    ∧ ({ s with banks := { s.banks with xbCore := [(0x6C0000, 8)] } } : State).coreWroteWord (0x6C0000 + 4 * 1) = true
    ∧ (s.slot 3).st = 3 ∧ (s.slot 0).st = 0 ∧ ((s.slot 15).st = 3 ∧ (s.slot 15).consumed = true)
    ∧ (∀ k, k < 8 → bit s.car.latches (80 + k) = false) ∧ s.hst.expertUntil = none
    ∧ bit (8 : Word) 3 = true ∧ (∀ i, i < 3 → bit (8 : Word) i = bit (s.reg Reg.PIP_CTRL) i) := by decide +kernel

/-- `live` with the descriptor of context 63 ready to be initialised. -/
def describing : State :=
  let s := put live 0x600008 (toBytes (area 0 0xFFF false false true).1.toNat 4 ++ toBytes 0xFFF 4
    ++ toBytes (area 0x410000 0xFFF true true false).1.toNat 4 ++ toBytes 0xFFF 4
    ++ toBytes (area 0x420000 0xFFF true true false).1.toNat 4 ++ toBytes 0xFFF 4)
  (s.setReg (cdReg 63 0) 0x10).setReg (cdReg 63 2) 0x03020001

theorem witness_RegisterEffects : let s := describing
    (s.calm = true ∧ 4 ≤ s.str.step ∧ s.str.halt = false ∧ s.pwr.sleep ≠ .asleep ∧ (∀ d, d < 12 → s.inRun d = true))
    ∧ (s.car.running ≠ some 63 ∧ fld (0xA500003F : Word) 31 24 = 0xA5 ∧ bit (0xA500003F : Word) 8 = false
      ∧ fld (0xA500003F : Word) 5 0 = 63 ∧ s.core.fpown ≠ some 63 ∧ bit (s.cdCtrl 63) 4 = true
      ∧ (bit (s.cdCtrl 63) 4 && s.initFails 63) = false ∧ (∀ k, k < 8 → s.eccAt (sdtBase + 8 * s.cdIdx 63 k) ≠ .double))
    ∧ (bit (8 : Word) 3 = true ∧ bit (8 : Word) 4 = false ∧ bit (8 : Word) 5 = false)
    ∧ (∀ i, i < 3 → bit (8 : Word) i = bit (s.reg Reg.SCN_CTRL) i)
    ∧ (∀ i, i < 3 → bit (8 : Word) i = bit (s.reg Reg.PIP_CTRL) i) ∧ (∀ i, i < 3 → bit (0x10 : Word) i = bit (s.reg Reg.PIP_CTRL) i)
    ∧ (∀ i, i < 3 → bit (0x20 : Word) i = bit (s.reg Reg.PIP_CTRL) i) := by decide +kernel

/-- Slot 15 submitted with a packet of an opcode and length, nothing else to do. -/
def submitted (step op len : Nat) : State :=
  let s := put live (slotAddr 15) (toBytes (op + 65536 * len) 4)
  { s with
    str := { s.str with step := step }, car := { s.car with running := none }
    hst := { s.hst with isOpen := true, next := 15, slots := [(15, { st := 1 })] } }

theorem witness_SlotInterpretation : ∀ e ∈ [(15, 0x02, 4), (15, 0x03, 8), (15, 0x20, 12), (15, 0x7F, 4), (5, 0x03, 8)],
    let s := submitted e.1 e.2.1 e.2.2
    let w := s.w32 (slotAddr 15 + 4 * 0)
    s.core.sb = [] ∧ s.calm = true ∧ s.bare = true ∧ s.hst.isOpen = true ∧ s.hst.interp = none ∧ (s.dom 8).st = .run ∧ 4 ≤ s.str.step
    ∧ s.str.halt = false ∧ s.pwr.sleep ≠ .asleep ∧ s.car.running = none ∧ s.hst.next = 15 ∧ (s.slot 15).st = 1
    ∧ (s.slot 15).written = false ∧ s.str.step = e.1 ∧ fld w 7 0 = e.2.1 ∧ fld w 31 16 = e.2.2 := by decide +kernel

theorem witness_SlotInterpretation_written : let s0 := submitted 15 0x02 4
    let s := { s0 with hst := { s0.hst with slots := [(15, { st := 1, written := true })] } }
    s.calm = true ∧ s.bare = true ∧ s.hst.next = 15 ∧ (s.slot 15).st = 1 ∧ (s.slot 15).written = true ∧ s.str.step = 15 := by
  decide +kernel

/-- Slot 15 with the packet of these words under interpretation. -/
def asked (ws : List Word) : State :=
  { live with
    hst := { live.hst with
      isOpen := true, interp := some (15, ws ++ List.replicate (64 - ws.length) 0), slots := [(15, { st := 2, tag := 9 })] }
    core := { live.core with lantern := { live.core.lantern with slot := true } }
    str := { live.str with digests := keyDigest ++ keyDigest ++ keyDigest ++ keyDigest } }

/-- Its words. -/
def words (s : State) : List Word := (s.hst.interp.getD (0, [])).2

theorem witness_HostGeneral : ∀ ws ∈ [[0x80001], [0x40002], [0x40004], [0x40012], [0x80050, 0], [0x80050, 1], [0x80003, 1], [0x80003, 0],
      [0x80003, 2], [0x80041, 0], [0x80041, 1], [0x80041, 2], [0x80048, 0x1A]],
    let s := asked (ws.map (BitVec.ofNat 32))
    s.interprets 15 (words s) = true ∧ s.hst.jobs = [] ∧ s.banks.ecc = [] ∧ s.bcn.role = 0 ∧ s.bcn.resync = .none ∧ s.scn.mode = .run
    ∧ s.scn.phase = .program ∧ s.calm = true ∧ s.domainsReady = true ∧ s.str.gen ≠ 0 ∧ s.scn.hsafe = false ∧ s.scn.staged = []
    ∧ s.log.queue.length < 17 ∧ (s.dom 10).st = .run ∧ s.required 10 = false ∧ s.inRun 11 = true
    ∧ s.car.running = some 1 ∧ (s.ctx 1).lkc = 0 ∧ (s.ctx 1).slot = .none := by decide +kernel

theorem witness_HostGeneral_power :
    (let s := (asked [0x80048, 0x0A]).setDom 10 { st := .doze, ack := true };
      s.interprets 15 (words s) = true ∧ (s.dom 10).st = .doze)
    ∧ (let s := { asked [0x80048, 0x0F] with scn := { live.scn with mode := .stop } };
      s.interprets 15 (words s) = true ∧ s.scn.mode = .stop ∧ bit s.clk.lost 7 = false ∧ s.pwr.sleep = .awake)
    ∧ (let s := { live with hst := { live.hst with expertUntil := some 777 } };
      s.hst.expertUntil = some 777 ∧ 777 ≤ s.clk.us) := by decide +kernel

/-- EXPERT_UNLOCK with the test authorisation, the challenge issued or another. -/
def unlocking (c : DWord) : State :=
  let s := asked ([0x980041, 1] ++ bytesToWords expertAuth)
  { s with hst := { s.hst with challenge := some c } }

theorem witness_HostGeneral_unlock : let s := unlocking 0x1122334455667788
    let b := wordsToBytes (((words s).drop 2).take 36)
    s.interprets 15 (words s) = true ∧ s.inRun 11 = true ∧ authOk b = true ∧ s.hst.challenge = some (dwordAt b 0)
    ∧ (unlocking 5).hst.challenge ≠ some (dwordAt b 0) := by decide +kernel

/-- A share slot may begin, with a check deferred for slot 15. -/
def checking (op : Nat) (data : List Nat) : State :=
  let s := asked []
  { s with
    car := { s.car with running := none }, core := live.core
    hst := { s.hst with interp := none, jobs := [⟨15, op, data⟩] } }

theorem witness_HostGeneral_check : ∀ g ∈ [0, 1], let s := checking 0x41 (g :: expertAuth.map (·.toNat))
    s.slotFree = true ∧ s.hst.jobs = [⟨15, 0x41, g :: expertAuth.map (·.toNat)⟩] ∧ s.banks.ecc = [] := by decide +kernel

theorem witness_HostGeneral_signed : let s := unlocking 0x1122334455667788
    let b := wordsToBytes (((words s).drop 2).take 36)
    s.keyCheck (byteAt b 12) ((b.drop 16).take 64) ((b.drop 80).take 64) (b.take 80) = 0 := by decide +kernel

/-- A command with 144 bytes of XB, and the log frozen. -/
def logAsked (op off : Nat) (b : List Byte) : State :=
  let s := put (asked [BitVec.ofNat 32 (op + 12 * 65536), BitVec.ofNat 32 off, 144]) (0x6C0000 + off) b
  ((s.setReg Reg.LOG_STAT 1).setReg Reg.LOG_SEQ 55).setReg Reg.LOG_HEAD 0x010000FF

theorem witness_HostLogAndGrant : ∀ op ∈ [0x38, 0x39, 0x3B],
    let s := logAsked op 0x1000 []
    s.interprets 15 (words s) = true ∧ s.bcn.resync = .none ∧ s.banks.ecc = [] ∧ s.reg Reg.MEM_MAPOUT = 0
    ∧ fld ((words s).getD 0 0) 7 0 = op ∧ s.f Reg.LOG_STAT 1 0 = 1 ∧ s.log.side = [] ∧ s.log.queue = [] ∧ 1 ≤ 144 ∧ 144 ≤ 256
    ∧ 0x1000 % 8 = 0 ∧ 0x1000 + 64 * 144 ≤ 0x40000 := by decide +kernel

theorem witness_HostLogAndGrant_asked : ∀ e ∈ [(0x3A, 0x3FF70, clearAuth), (0x40, 0x1000, certificate)],
    let s := logAsked e.1 e.2.1 e.2.2
    s.interprets 15 (words s) = true ∧ fld ((words s).getD 0 0) 7 0 = e.1 ∧ e.2.1 % 8 = 0 ∧ e.2.1 + 144 ≤ 0x40000
    ∧ s.f Reg.LOG_STAT 1 0 = 1 ∧ s.inRun 11 = true ∧ s.hst.jobs = [] ∧ s.bcn.resync = .none ∧ s.banks.ecc = []
    ∧ s.reg Reg.MEM_MAPOUT = 0 := by decide +kernel

theorem witness_HostLogAndGrant_clear : let b := clearAuth
    let s := ((checking 0x3A (b.map (·.toNat))).setReg Reg.LOG_STAT 1).setReg Reg.LOG_SEQ 55
    s.slotFree = true ∧ s.bcn.resync = .none ∧ s.banks.ecc = [] ∧ s.reg Reg.MEM_MAPOUT = 0 ∧ s.hst.jobs = [⟨15, 0x3A, b.map (·.toNat)⟩]
    ∧ s.f Reg.LOG_STAT 1 0 = 1 ∧ s.inRun 11 = true ∧ s.log.side = [] ∧ clearAuthOk b = true
    ∧ word32 b 8 = (s.reg Reg.LOG_SEQ).toNat ∧ half b 12 = s.str.startCount
    ∧ s.keyCheck (byteAt b 6) ((b.drop 16).take 64) ((b.drop 80).take 64) (b.take 80) = 0 := by decide +kernel

theorem witness_HostLogAndGrant_grant : let b := certificate
    let s := checking 0x40 (b.map (·.toNat))
    s.slotFree = true ∧ s.hst.jobs = [⟨15, 0x40, b.map (·.toNat)⟩] ∧ s.str.step = 15 ∧ s.inRun 11 = true ∧ certOk b = true
    ∧ half b 12 ≤ s.str.startCount ∧ s.str.startCount ≤ half b 14 ∧ s.dbgLevel < 2 ∧ s.f Reg.DBG_TRCTRL 0 0 = 0
    ∧ bit s.car.latches 117 = false
    ∧ s.keyCheck (byteAt b 6) ((b.drop 16).take 64) ((b.drop 80).take 64) (b.take 80) = 0 := by decide +kernel

/-- An authorisation under a signature that fails. -/
theorem witness_HostLogAndGrant_unsigned : let b := clearAuth.take 100 ++ (clearAuth.drop 100).map (· + 1)
    let s := checking 0x3A (b.map (·.toNat))
    s.slotFree = true ∧ ¬ s.keyCheck (byteAt b 6) ((b.drop 16).take 64) ((b.drop 80).take 64) (b.take 80) = 0 := by decide +kernel

/-- The header of a generation of len bytes: GEN_ID 77, its context table at 0x100, its descriptors at 0x980, no map. -/
def header (len : Nat) : List Byte := toBytes (0x4E45474B + 2 ^ 32 + 77 * 2 ^ 64 + len * 2 ^ 96 + 0x100 * 2 ^ 128 + 0x980 * 2 ^ 160) 64

/-- Three descriptors, for code, operand stack and return stack, as table entries 1 to 3. -/
def table : List Byte :=
  toBytes (area 0 0xFFF false false true).1.toNat 4 ++ toBytes 0xFFF 4
    ++ toBytes (area 0x410000 0xFFF true true false).1.toNat 4 ++ toBytes 0xFFF 4
    ++ toBytes (area 0x420000 0xFFF true true false).1.toNat 4 ++ toBytes 0xFFF 4

/-- Bank A with a generation whose context 0 runs from its start, verified; its tables happen to stand installed. -/
def generation (s : State) : State :=
  let s := put s 0 (header 8192 ++ List.replicate 192 0 ++ toBytes 0x10 8 ++ toBytes 0x03020001 4)
  let s := put (put s 0x988 table) 0x600008 table
  let s := (s.setReg (cdReg 0 0) 0x10).setReg (cdReg 0 2) 0x03020001
  { s with str := { s.str with gen := 0, fcore := 61035 }, olc := { s.olc with digA := keyDigest } }

/-- `generation live`. -/
def gen1 : State := generation live

theorem gen1_mem : Map.wf memDefault gen1.mem = true ∧ Map.wf resetValue gen1.regs = true ∧ gen1.banks.ecc = []
    ∧ gen1.bcn.resync = .none ∧ (∀ e ∈ gen1.mem, e.1 < 0x10C ∨ (0x980 ≤ e.1 ∧ e.1 < 0x9A0) ∨ (0x600000 ≤ e.1 ∧ e.1 < 0x600020))
    ∧ (∀ e ∈ gen1.regs, e.1 = cdReg 0 0 ∨ e.1 = cdReg 0 2) := by decide +kernel

theorem gen1_zero (a : Nat) (h : 0x10C ≤ a) (h2 : a < 0x980 ∨ 0x9A0 ≤ a) (h3 : a < 0x600000 ∨ 0x600020 ≤ a) (h4 : a < 0x740000) :
    gen1.byte a = 0 := by
  have e : gen1.byte a = memDefault a := Map.get_absent memDefault gen1.mem a fun e he heq => by
    have := gen1_mem.2.2.2.2.1 e he
    omega
  rw [e, memDefault, if_pos (Or.inl h4)]

theorem gen1_word (a : Nat) (h : 0x10C ≤ a) (h2 : a + 3 < 0x980 ∨ 0x9A0 ≤ a) (h3 : a + 3 < 0x600000 ∨ 0x600020 ≤ a)
    (h4 : a + 3 < 0x740000) : gen1.w32 a = 0 := by
  have e (k : Nat) (hk : k < 4) : gen1.byte (a + k) = 0 := gen1_zero _ (by omega) (by omega) (by omega) (by omega)
  have r : rangeFrom a 4 = [a + 0, a + 1, a + 2, a + 3] := rfl
  simp only [State.w32, State.mread, r, List.map, e 0 (by omega), e 1 (by omega), e 2 (by omega), e 3 (by omega)]
  rfl

theorem overwrite_self (s : State) (a : Nat) (bs : List Byte) (h0 : s.banks.ecc = []) (h1 : s.bcn.resync = .none)
    (w : Map.wf memDefault s.mem = true) (h2 : regionOf a ≠ .xb) (h3 : a % 8 = 0) (h4 : bs.length % 8 = 0) (h5 : bs ≠ [])
    (hx : ∀ j, j < bs.length → s.byte (a + j) = bs.getD j (memDefault (a + j))) : s.overwrite a bs = s := by
  have e : ∀ p, Map.drop p s.banks.ecc = s.banks.ecc := fun p => by rw [h0]; rfl
  have l : 0 < bs.length := List.length_pos_iff.mpr h5
  have z : min bs.length ((8 - a % 8) % 8) = 0 := by omega
  have m : (bs.length - 0) / 8 * 8 = bs.length := by omega
  have x : s.xbWrote a bs.length = s := by simp only [State.xbWrote, h2, ne_eq, not_false_eq_true, true_or, if_true]
  have i : bs.isEmpty = false := by cases bs <;> simp_all
  simp only [State.overwrite, State.putBytes, z, m, i, x, if_true, if_false, Bool.false_eq_true, if_neg (by omega : ¬ bs.length = 0),
    List.drop_zero, Nat.zero_add, Nat.add_zero, List.take_length, List.drop_length, List.isEmpty_nil]
  simp only [State.putWhole, State.mwriteBytes, State.markDirty, e]
  rw [if_pos (Or.inl h1)]
  simp only [Map.setAll_self memDefault s.mem a bs w hx]

theorem setReg_self (s : State) (a : Nat) (v : Word) (w : Map.wf resetValue s.regs = true) (h : s.reg a = v) : s.setReg a v = s := by
  simp only [State.setReg, Map.set_self resetValue s.regs a v w h]

theorem foldl_self {α : Type} (f : State → α → State) (s : State) (l : List α) (h : ∀ x ∈ l, f s x = s) : l.foldl f s = s := by
  induction l with
  | nil => rfl
  | cons x l ih =>
    simp only [List.foldl_cons, h x (by simp)]
    exact ih fun y hy => h y (by simp [hy])

theorem gen1_table (j : Nat) (h : j < 2048) : gen1.byte (0x600000 + j) = gen1.byte (0x980 + j) := by
  by_cases g : j < 32
  · have : ∀ j, j < 32 → gen1.byte (0x600000 + j) = gen1.byte (0x980 + j) := by decide +kernel
    exact this j g
  · rw [gen1_zero _ (by omega) (by omega) (by omega) (by omega), gen1_zero _ (by omega) (by omega) (by omega) (by omega)]

theorem gen1_reg (a : Nat) (h0 : a ≠ cdReg 0 0) (h2 : a ≠ cdReg 0 2) : gen1.reg a = resetValue a :=
  Map.get_absent resetValue gen1.regs a fun e he heq => by
    have := gen1_mem.2.2.2.2.2 e he
    omega

theorem gen1_install : gen1.install 1 = gen1 := by
  have hc : genBase 1 + gen1.hdr 1 16 = 0x100 := by decide +kernel
  have hd : genBase 1 + gen1.hdr 1 20 = 0x980 := by decide +kernel
  have ho : gen1.overwrite sdtBase ((rangeFrom 0x980 2048).map gen1.byte) = gen1 :=
    overwrite_self _ _ _ gen1_mem.2.2.1 gen1_mem.2.2.2.1 gen1_mem.1 (by decide) (by decide)
      (by simp [rangeFrom]) (by simp [rangeFrom]) fun j hj => by
      have hj' : j < 2048 := by simpa [rangeFrom] using hj
      rw [gen1_table j hj']
      simp [rangeFrom, List.getD, hj']
  simp only [State.install, hc, hd, ho]
  have hcd : ∀ i, i < 512 → i ≠ 0 → i ≠ 2 → resetValue (Reg.CAR_CD + 4 * i) = 0 := by decide +kernel
  have hro : ∀ i, i < 128 → resetValue (Reg.CAR_ROUTE + 4 * i) = 0 := by decide +kernel
  have f1 : (List.range 512).foldl (fun (s : State) i =>
      s.setReg (Reg.CAR_CD + 4 * i) (s.w32 (0x100 + 4 * i) &&& rwMask (Reg.CAR_CD + 4 * i))) gen1 = gen1 := by
    refine foldl_self _ _ _ fun i hi => setReg_self _ _ _ gen1_mem.2.1 ?_
    rw [List.mem_range] at hi
    by_cases g : i < 3
    · have : ∀ i, i < 3 → gen1.reg (Reg.CAR_CD + 4 * i) = gen1.w32 (0x100 + 4 * i) &&& rwMask (Reg.CAR_CD + 4 * i) := by decide +kernel
      exact this i g
    · rw [gen1_word _ (by omega) (by omega) (by omega) (by omega), gen1_reg _ (by simp only [cdReg]; omega) (by simp only [cdReg]; omega),
        hcd i hi (by omega) (by omega)]
      exact (BitVec.zero_and).symm
  have f2 : (List.range 128).foldl (fun (s : State) i =>
      s.setReg (Reg.CAR_ROUTE + 4 * i) (BitVec.ofNat 32 (s.byte (0x100 + 2048 + i)).toNat &&& rwMask (Reg.CAR_ROUTE + 4 * i))) gen1
        = gen1 := by
    refine foldl_self _ _ _ fun i hi => setReg_self _ _ _ gen1_mem.2.1 ?_
    rw [List.mem_range] at hi
    have r0 : ∀ i, i < 128 → Reg.CAR_ROUTE + 4 * i ≠ cdReg 0 0 ∧ Reg.CAR_ROUTE + 4 * i ≠ cdReg 0 2 := by decide +kernel
    rw [gen1_zero _ (by omega) (by omega) (by omega) (by omega), gen1_reg _ (r0 i hi).1 (r0 i hi).2, hro i hi]
    exact (BitVec.zero_and).symm
  rw [f1, f2]

theorem witness_HostCode_commit : gen1.commitContentOk 1 = true := by
  have a : bit (gen1.cdCtrl 0) 4 = true ∧ (List.range 64).all (fun n => !bit (gen1.cdCtrl n) 4 || !gen1.initFails n) = true
      ∧ (List.range (gen1.mapCnt 1)).all (fun i => gen1.mapEntOk gen1.str.gen (gen1.mapEnt 1 i)) = true
      ∧ prefsOk (gen1.prefs 1) = true
      ∧ gen1.hbOf 1 * 1000000 ≤ gen1.f Reg.OLC_CFG 31 16 * gen1.fcoreHz := by decide +kernel
  have b : (rangeFrom 1 255).all (fun i => gen1.imageDescOk 1 i) = true := by
    have hd : genBase 1 + gen1.hdr 1 20 = 0x980 := by decide +kernel
    rw [List.all_eq_true]
    intro i hi
    simp only [rangeFrom, List.mem_map, List.mem_range] at hi
    obtain ⟨k, hk, rfl⟩ := hi
    by_cases g : k < 3
    · have : ∀ k, k < 3 → gen1.imageDescOk 1 (1 + k) = true := by decide +kernel
      exact this k g
    · simp only [State.imageDescOk, hd, gen1_word (0x980 + 8 * (1 + k)) (by omega) (by omega) (by omega) (by omega),
        gen1_word (0x980 + 8 * (1 + k) + 4) (by omega) (by omega) (by omega) (by omega)]
      rfl
  simp only [State.commitContentOk, gen1_install, Bool.and_eq_true, decide_eq_true_eq]
  exact ⟨⟨⟨⟨⟨a.1, a.2.1⟩, b⟩, a.2.2.1⟩, a.2.2.2.1⟩, a.2.2.2.2⟩

theorem witness_HostCode : ∀ ws ∈ [[0x140008, 1, 0x1FFFF8, 0x1000, 8], [0x280009, 1], [0x10000A, 1, 0x1000, 16480]],
    let s := generation (asked (ws.map (BitVec.ofNat 32)))
    (s.bcn.role = 0 ∧ s.bcn.resync = .none ∧ s.banks.ecc = [] ∧ s.reg Reg.MEM_MAPOUT = 0 ∧ (∀ d, d < 12 → s.inRun d = true))
    ∧ s.interprets 15 (words s) = true ∧ s.hst.jobs = [] ∧ s.scn.mode = .run ∧ s.str.gen = 0 ∧ s.olc.commit = none
    ∧ 0x1FFFF8 + 8 ≤ 0x200000 ∧ s.headerOk 1 = true ∧ s.verified 1 ≠ [] := by decide +kernel

theorem witness_HostCode_digest : ∀ l ∈ [[0x4B], []],
    let s0 := { put live 0x200000 (header 64) with str := { live.str with gen := 0 } }
    let d := if l = [0x4B] then sha256 (header 64) else keyDigest
    let s := { s0 with hst := { s0.hst with jobs := [⟨15, 0x09, [2, ofBytes d]⟩] } }
    (s.bcn.role = 0 ∧ s.bcn.resync = .none ∧ s.banks.ecc = [] ∧ s.reg Reg.MEM_MAPOUT = 0 ∧ (∀ k, k < 12 → s.inRun k = true))
    ∧ s.hst.interp = none ∧ s.hst.jobs = [⟨15, 0x09, [2, ofBytes d]⟩] ∧ d.length = 32 ∧ 4 ≤ s.str.step ∧ s.str.halt = false
    ∧ s.pwr.por = false ∧ s.pwr.sleep ≠ .asleep ∧ s.core.halt = .none ∧ s.str.gen < 2
    ∧ decide (sha256 ((List.range (s.genLenOf 2)).map fun j => s.byte (0x200000 + j)) = d) = decide (l = [0x4B]) := by decide +kernel

theorem witness_HostCode_load : ∀ b ∈ [1, 2], let s := { live with hst := { live.hst with jobs := [⟨15, 0x08, [b, 0x1FFFF8, 0x3FFF8, 8]⟩] } }
    s.hst.interp = none ∧ s.hst.jobs = [⟨15, 0x08, [b, 0x1FFFF8, 0x3FFF8, 8]⟩] ∧ 0x3FFF8 % 8 = 0 ∧ 0x3FFF8 + 8 ≤ 0x40000
    ∧ 0x1FFFF8 + 8 ≤ 0x200000 ∧ s.str.step = 15 ∧ s.bcn.role = 0 ∧ s.banks.ecc = [] := by decide +kernel

/-- A commit of bank B that waits. -/
def commit : Commit := ⟨15, 2, 0x1000, 16480, 777⟩

theorem witness_HostCode_timeout :
    let s := ({ put live 0x200000 (header 64) with
      scn := { live.scn with phase := .housekeeping, h1Done := true }
      olc := { live.olc with commit := some commit }
      hst := { live.hst with jobs := [⟨15, 0x0A, [2]⟩] } } : State).setReg Reg.OLC_CFG 0x07D00000
    s.olc.commit = some commit ∧ commit.slot = 15 ∧ commit.target = 2 ∧ commit.report + commit.replen ≤ 0x40000 ∧ 16480 ≤ commit.replen
    ∧ s.calm = true ∧ s.scn.phase = .housekeeping ∧ s.scn.h1Done = true ∧ 4 ≤ s.str.step ∧ s.str.halt = false ∧ s.pwr.sleep ≠ .asleep
    ∧ commit.at_ + 1000 * s.f Reg.OLC_CFG 15 0 ≤ s.clk.us ∧ s.hst.interp = none ∧ s.hst.jobs = [⟨15, 0x0A, [2]⟩] := by decide +kernel

theorem witness_HostCode_abort :
    let s := { asked [0x8000B, 0] with olc := { live.olc with commit := some { commit with slot := 0 } } }
    let s := { s with hst := { s.hst with jobs := [⟨0, 0x0A, [2]⟩] } }
    s.interprets 15 (words s) = true ∧ fld ((words s).getD 0 0) 7 0 = 0x0B ∧ ((words s).getD 1 0).toNat = 0
    ∧ s.olc.commit = some { commit with slot := 0 } ∧ s.hst.jobs = [⟨0, 0x0A, [2]⟩] := by decide +kernel

theorem witness_HostCode_const : let ws := [0x30000C, 1] ++ List.replicate 8 0 ++ [BitVec.ofNat 32 (0x5FFFFC + 2 * 2 ^ 23), 9]
    let s := asked ws
    s.interprets 15 (words s) = true ∧ s.scn.mode = .run ∧ s.hst.jobs = [] ∧ fld ((words s).getD 0 0) 7 0 = 0x0C
    ∧ ((words s).getD 1 0).toNat = 1 ∧ s.olc.consts.length < 16 ∧ s.str.gen ≠ 0 ∧ (constEntries (words s)).all s.constEntryOk = true
    ∧ constDigestOk (words s) = true := by decide +kernel

/-- The ring at S4 with the packet of these words under interpretation. -/
def atS4 (ws : List Word) : State :=
  let s := opening 4
  { s with
    str := { s.str with s4Wait := 3 }
    hst := { s.hst with interp := some (15, ws ++ List.replicate (64 - ws.length) 0), slots := [(15, { st := 2 })] } }

theorem witness_HostCode_patch : let s0 := atS4 [0x100010, 0x1000, 245760, 0]
    let s := { s0 with str := { s0.str with decided := true } }
    s.hst.interp = some (15, words s) ∧ s.str.step = 4 ∧ s.str.s4Ended = false ∧ s.lanternTurn = true
    ∧ s.car.running = none ∧ s.core.lantern.slot = false ∧ s.core.sb = [] ∧ fld s.str.cfg 31 16 ≠ 0 ∧ fld ((words s).getD 0 0) 7 0 = 0x10
    ∧ s.str.decided = true ∧ s.str.blobs = [] ∧ s.hst.jobs = [] ∧ 0x1000 + 245760 ≤ 0x40000 ∧ ((words s).getD 3 0).toNat = 0 := by
  decide +kernel

/-- A start record of 65535 starts, each step failed as often as its number modulo 3. -/
def oldRecord : List Byte :=
  let b := toBytes 0x00800001 4 ++ toBytes 65535 2 ++ [1, 2] ++ ((List.range 10).flatMap fun k => toBytes (4 * (k % 3)) 4)
    ++ toBytes 0x00200003 4 ++ List.replicate 72 0
  b ++ toBytes (crc32 b) 4

theorem witness_HostCode_restore : let s := atS4 (0x840011 :: bytesToWords oldRecord)
    let b := wordsToBytes (((words s).drop 1).take 32)
    s.hst.interp = some (15, words s) ∧ s.lanternTurn = true ∧ s.car.running = none ∧ s.core.lantern.slot = false ∧ fld ((words s).getD 0 0) 7 0 = 0x11 ∧ s.str.cold = true ∧ s.str.firstDone = false
    ∧ s.str.decided = false ∧ crc32 (b.take 124) = word32 b 124 ∧ word32 b 0 = 0x00800001
    ∧ (∀ k, k < 10 → byteAt b (8 + 4 * k) / 4 % 4 ≠ 3) ∧ fld (BitVec.ofNat 32 (word32 b 48)) 31 16 ≠ 0 := by decide +kernel

theorem witness_HostConfig : ∀ ws ∈ [[0x80018, 0x0107FFFF], [0x80019, 0x7FFFF], [0x80019, 0x80000000], [0xC001A, 0x3FFF8, 8],
      [0xC001A, 0x1000, 32]],
    let s := asked (ws.map (BitVec.ofNat 32))
    s.interprets 15 (words s) = true ∧ s.banks.ecc = [] ∧ s.reg Reg.MEM_MAPOUT = 0 ∧ (∀ d, d < 12 → s.inRun d = true)
    ∧ s.bcn.resync = .none ∧ s.scn.mode = .run ∧ s.bcn.role = 0 ∧ ((ForceOp.set 0x7FFFF true).apply s.forcesStaged).length ≤ 1024
    ∧ (0x0107FFFF : Word) = BitVec.ofNat 32 (0x7FFFF + 2 ^ 24 * true.toNat) := by decide +kernel

/-- The block of a host-fed station 7 of two input words. -/
def hostFed : List Byte :=
  [2, 0] ++ toBytes 7 2 ++ [2, 1, 5, 0] ++ toBytes 100 2 ++ toBytes 200 2 ++ toBytes 300 2 ++ toBytes 0 2 ++ List.replicate 40 0

theorem witness_HostConfig_station : let s := put (asked [0xC0020, 0x3FFC8, 56]) 0x6FFFC8 hostFed
    let b := (List.range 56).map fun j => s.byte (0x6C0000 + 0x3FFC8 + j)
    s.interprets 15 (words s) = true ∧ s.scn.mode = .run ∧ 0x3FFC8 + 56 ≤ 0x40000 ∧ s.cbAccepted b = true := by decide +kernel

theorem witness_HostConfig_feed : let s0 := asked [0x240021, 7, 5, 6, 2, 1, 2, 3, 4]
    let s := { s0 with flk := { s0.flk with staged := [.station hostFed] } }
    s.interprets 15 (words s) = true ∧ s.scn.mode = .run ∧ s.bcn.role = 0
    ∧ (s.cfgStaged.hf 7).any (fun x => decide (x.wi = 2) && decide (x.st ≠ .failed)) = true
    ∧ s.flk.staged.all (fun e => match e with
      | .feed k _ _ _ => decide (k ≠ 7)
      | _ => true) = true := by decide +kernel

theorem witness_HostConfig_status : let s0 := asked [0x80022, 255]
    let s := { s0 with flk := { s0.flk with stns := [(255, some stn0)] } }
    s.interprets 15 (words s) = true ∧ s.imageHeld = false ∧ s.stn 255 = some stn0 := by decide +kernel

theorem witness_HostConfig_registers :
    (let s := asked [0x180028, 2, 0x018, 55, 0x400, 0x800003];
      s.interprets 15 (words s) = true ∧ s.scn.mode = .run ∧ (regEntries (words s)).all (s.entryOk 0x08) = true
        ∧ (s.afterPacket 0x28 (words s)).pointsDistinct = true)
    ∧ (let s := asked [0x100029, 1, 0, 1];
      s.interprets 15 (words s) = true ∧ s.scn.mode = .run ∧ (regEntries (words s)).all (s.entryOk 0x09) = true
        ∧ (s.afterPacket 0x29 (words s)).pointsDistinct = true) := by decide +kernel

theorem witness_HostConfig_pair :
    (∀ e ∈ [(0, 0), (1, 1), (2, 2), (3, 0)],
      let s := { asked [0x100030, BitVec.ofNat 32 e.1, 0, 0] with scn := { live.scn with mode := .stop }, bcn := { role := e.2 } };
      s.interprets 15 (words s) = true ∧ s.scn.mode = .stop ∧ s.bcn.role ≤ 2 ∧ s.bcn.resync = .none)
    ∧ (let s := { asked [0x80031, 1] with scn := { live.scn with mode := .stop }, bcn := { role := 2 } };
      s.interprets 15 (words s) = true ∧ s.bcn.role = 2 ∧ s.scn.mode = .stop)
    ∧ (let s := { asked [0x80031, 0] with bcn := { role := 1, sync := true } };
      s.interprets 15 (words s) = true ∧ s.bcn.role = 1 ∧ s.bcn.sync = true ∧ s.hst.jobs = [])
    ∧ (let s := { asked [0x100032, 0x181, 8128, 0] with scn := { live.scn with mode := .stop } }.setReg Reg.PWR_STRAP 7;
      s.interprets 15 (words s) = true ∧ s.scn.mode = .stop ∧ bit (0x181 : Word) 0 = true
        ∧ bit (0x181 : Word) (s.f Reg.PWR_STRAP 2 0) = true ∧ 8128 + 64 ≤ 8192) := by decide +kernel

/-! ### The statements about the whole block meet states -/

theorem witness_StepRunsFront : ({ live with pending := [.nop, .add] } : State).pending = .nop :: [.add] := rfl

theorem witness_IdleStep : State.reset.pending = [] ∧ State.reset.pwr.por = true
    ∧ live.pending = [] ∧ live.pwr.por = false ∧ live.traceOn = false ∧ live.scn.mode = .run := by decide +kernel

theorem witness_CanonicalKept : live.canonical ∧ ∃ t, step { live with pending := [.add] } = .next t :=
  ⟨by unfold State.canonical; decide +kernel, _, rfl⟩

end Sys2Proof.Tests
end

section
/-! SUPPORT. What reset leaves, and a PWR_RST of PD10 that meets a load which PD10 has accepted. -/

namespace Sys2Proof.Machine

/-! ### Reset (R8, R33, R54, R63) -/

theorem State.dom_reset {n : Nat} (hn : 1 ≤ n) : State.reset.dom n = {} := if_neg (Nat.ne_of_gt hn)

theorem State.reg_reset (a : Nat) : State.reset.reg a = resetValue a := rfl

theorem State.byte_reset (a : Nat) : State.reset.byte a = memDefault a := rfl

/-- Settles O59: reset lists nothing in any store, so what each read of it finds is the value of an unlisted key. -/
theorem resetState : Obligations.ResetState := by
  have off : ∀ n, 1 ≤ n → (State.reset.dom n).st = .off := fun n hn => by rw [State.dom_reset hn]
  exact ⟨memory_wf_reset, rfl, rfl, rfl, rfl, rfl, off, State.reg_reset, State.byte_reset⟩

/-! ### A command answers one next state -/

/-- What a command gives under two heads it gives of one state. -/
theorem Gives.both {c : Instr} {s : State} {P Q : State → Prop} (hP : Gives c s P) (hQ : Gives c s Q) :
    ∃ t, P t ∧ Q t := by
  obtain ⟨t, ht, hPt⟩ := hP
  obtain ⟨u, hu, hQu⟩ := hQ
  have htu : t = u := Host.Outcome.next.inj (ht.symm.trans hu)
  exact ⟨t, hPt, htu ▸ hQu⟩

/-! ### The reset of PD10 while it owes the core an answer (R55, R57) -/

/-- Context 1, privileged, with its code in CBA, the Beacon page as its data area, both stacks in the data bank, and the offset
of BCN_STAT on top of its operand stack. -/
def beaconReader : Ctx :=
  { pc := 0x100, sw := 0x01000280, osp := 0x1000, rsp := 0x1000, st := .ready, entry := 0x100, oc := [0x10]
    segs := [(0, 0x22000000, 0x05000FFF), (1, 0x21F8B000, 0x05000FFF), (2, 0x21C10000, 0x05000FFF),
      (3, 0x21C20000, 0x05000FFF)] }

/-- A block in RUN with every domain up, `beaconReader` on the core. -/
def beaconReady : State :=
  { State.reset with
    pwr := { State.reset.pwr with por := false, doms := (List.range 11).map fun m => (m + 1, { st := .run, ack := true }) }
    scn := { State.reset.scn with mode := .run, phase := .program }
    str := { State.reset.str with step := 15, gen := 1, startCount := 1 }
    car := { State.reset.car with running := some 1, ctxs := [(1, beaconReader)] } }

/-- The load of BCN_STAT through selector 1. -/
def beaconRead : HeldLoad := { kind := .ns, ctx := 1, pa := Reg.BCN_STAT, size := 4, signed := false, seg := 1 }

/-- `beaconReady` with the load at PD10, which has accepted it and not yet answered it. -/
def beaconLoad : State := { beaconReady with core := { beaconReady.core with held := some beaconRead } }

/-- The load is the one that LDW of the context makes. -/
theorem beaconReady_ldw : Gives (.ldw 1) beaconReady fun t => t.core.held = some beaconRead :=
  ⟨_, rfl, by decide +kernel⟩

theorem beaconLoad_dom (m : Nat) (h1 : 1 ≤ m) (h11 : m ≤ 11) : beaconLoad.dom m = { st := .run, ack := true } := by
  have all : ∀ m, m < 12 → 1 ≤ m → beaconLoad.dom m = { st := .run, ack := true } := by decide
  exact all m (Nat.lt_succ_of_le h11) h1

/-- PD10 has the load, and RUN does not require PD10. -/
theorem beaconLoad_pd10 : beaconLoad.sentLoad.map (fun h => domainOf h.pa) = some 10 ∧ beaconLoad.required 10 = false := by
  decide

/-- R57: the reset of PD10 answers the load ABORTED. It is held no more, and context 1 takes the segment-access fault. -/
theorem beaconLoad_aborted : Gives (.pwrRstDomain .lantern 0xA5000400) beaconLoad fun t =>
    t.core.held = none ∧ (t.ctx 1).pc = 16 * 3 :=
  ⟨_, rfl, by decide +kernel⟩

/-- Refutes O45: of the reset of PD10 by PWR_RST it says that only `pwr`, `chn` and `bcn` may change, without asking that no load
is held. In `beaconLoad` PD10 has accepted a load, which R57 has answered ABORTED, so the core's held load changes too. -/
theorem not_powerDomains : ¬ Obligations.PowerDomains := by
  unfold Obligations.PowerDomains
  intro h
  obtain ⟨-, -, -, -, -, -, -, -, -, hwrites⟩ := h beaconLoad 10 { st := .run, ack := true } (by decide) (by decide)
    (beaconLoad_dom 10 (by decide) (by decide)) rfl rfl rfl rfl
  have hlantern : 4 ≤ beaconLoad.str.step ∧ beaconLoad.str.halt = false ∧ beaconLoad.pwr.sleep ≠ .asleep
      ∧ beaconLoad.core.halt ≠ .stranded ∧ beaconLoad.core.halt ≠ .lockup := by decide
  obtain ⟨-, -, -, hreset⟩ := hwrites hlantern rfl beaconLoad_dom
  obtain ⟨t, ⟨-, -, -, -, -, -, -, hparts, -⟩, hheld, -⟩ := (hreset rfl beaconLoad_pd10.2).both beaconLoad_aborted
  have hkept : t.core.held = beaconLoad.core.held := hparts .held (by decide)
  rw [hheld] at hkept
  exact Option.some_ne_none _ hkept.symm

end Sys2Proof.Machine
end

section
/-! SUPPORT. Four states in which a command changes more than a statement about the start sequence or the host names: a load answered
ABORTED at a write of STR_CLEAR, a LOAD_PATCH still deferred at S8, a down-pending station at the entry to HOLD, and a saved record with
a reserved bit of CONFIG. -/

namespace Sys2Proof.Machine

/-! ### What a frame keeps -/

/-- A part that a frame does not name is kept. -/
theorem Only.keeps {ps : List Part} {rs : List Nat} {s t : State} {p : Part} (h : Only ps rs s t) (hp : p ∉ ps) : p.same s t := by
  obtain ⟨-, hparts, -⟩ := h
  exact hparts p hp

/-! ### A write of STR_CLEAR while the core has a load answered ABORTED (R57, R86) -/

/-- `beaconLoad` in no mode, its load answered ABORTED and the answer not yet taken by the core. -/
def answeredLoad : State :=
  { beaconLoad with
    scn := { beaconLoad.scn with mode := .none }
    core := { beaconLoad.core with held := some { beaconRead with aborted := true } } }

/-- R57: the core takes the answer as Lantern's write of STR_CLEAR ends, and holds the load no more. -/
theorem answeredLoad_taken : Gives (.strClearWrite .lantern 0xA5000000) answeredLoad fun t => t.core.held = none :=
  ⟨_, rfl, by decide +kernel⟩

/-- Refutes O47: of a write of STR_CLEAR it says that only `str` may change, without asking that no load is held. In `answeredLoad` the
core holds one that has been answered ABORTED, and every write of a register ends with the delivery of that answer (R57). -/
theorem not_startToTheRing : ¬ Obligations.StartToTheRing := by
  unfold Obligations.StartToTheRing
  intro h
  obtain ⟨-, -, -, -, -, hclear⟩ := h answeredLoad rfl rfl rfl rfl
  obtain ⟨t, ⟨-, -, honly⟩, hheld⟩ :=
    (hclear (by decide) rfl (by decide) rfl 0xA5000000 (by decide)).both answeredLoad_taken
  have hkept : t.core.held = answeredLoad.core.held := honly.keeps (show Part.held ∉ _ by decide)
  rw [hheld] at hkept
  exact Option.some_ne_none _ hkept.symm

/-! ### S8 fails while a LOAD_PATCH is deferred (R77, R82) -/

/-- S8 with an empty active generation in CBA, no digest recorded for it, and a LOAD_PATCH of slot 0 still deferred; class 17 has a
window of 1000 ms, threshold 8 and no escalation. -/
def patchAtS8 : State :=
  { State.reset with
    regs := [(Reg.FLT_CFG + 4 * 17, 0x020003E8)]
    pwr := { State.reset.pwr with por := false, doms := [(4, { st := .run, ack := true })] }
    str := { State.reset.str with step := 8, gen := 1 }
    hst := { State.reset.hst with jobs := [⟨0, 0x10, []⟩] } }

/-- No digest is empty, so the record's does not fit. -/
theorem patchAtS8_digest : sha256 (patchAtS8.genBytes 1 patchAtS8.str.genLen) ≠ patchAtS8.str.genDigest := by decide +kernel

/-- R82: the step that fails answers the LOAD_PATCH, which is deferred no more. -/
theorem patchAtS8_answered : Gives .codeBankVerification patchAtS8 fun t => t.hst.jobs = [] :=
  ⟨_, rfl, by decide +kernel⟩

/-- Refutes O48: where the digest at S8 does not fit it says that `hst` is unchanged, without asking, as it does where the digest fits,
that no command is deferred. A step that fails answers every deferred LOAD_PATCH ABORTED, as that of `patchAtS8`. -/
theorem not_startFromTheRing : ¬ Obligations.StartFromTheRing := by
  unfold Obligations.StartFromTheRing
  intro h
  obtain ⟨-, -, -, -, hverify⟩ := h patchAtS8 rfl rfl rfl rfl rfl (by decide) (by decide) rfl
  obtain ⟨hwrong, -⟩ := hverify rfl rfl (by decide) rfl (by decide)
  obtain ⟨t, ⟨-, honly⟩, hjobs⟩ := (hwrong patchAtS8_digest).both patchAtS8_answered
  have hkept : t.hst = patchAtS8.hst := honly.keeps (show Part.hst ∉ _ by decide)
  rw [hkept] at hjobs
  exact List.cons_ne_nil _ _ hjobs

/-! ### SET_MODE to HOLD with a station that is down-pending (R282, R307) -/

/-- SET_MODE to HOLD. -/
def holdPacket : List Word := [0x00080003, 2]

/-- `beaconReady` with no context on the core, station 0 down-pending, and Lantern at `holdPacket` in slot 0. -/
def pendingStation : State :=
  { beaconReady with
    car := { beaconReady.car with running := none }
    flk := { beaconReady.flk with stns := [(0, some { st := .pending })] }
    hst := { beaconReady.hst with interp := some (0, holdPacket) } }

/-- R307: the entry to HOLD marks the station down. -/
theorem pendingStation_down : Gives .setMode pendingStation fun t => (t.stn 0).map (·.st) = some .down :=
  ⟨_, rfl, by decide +kernel⟩

/-- Refutes O52: of SET_MODE to HOLD in the program phase it says that `flk` is unchanged, without asking that no station is
down-pending. The entry to HOLD marks such a station down (R307), as that of `pendingStation`. -/
theorem not_hostGeneral : ¬ Obligations.HostGeneral := by
  unfold Obligations.HostGeneral
  intro h
  obtain ⟨-, -, hcommands⟩ := h
  obtain ⟨-, -, -, -, -, -, -, -, hhold, -⟩ :=
    hcommands pendingStation 0 holdPacket (by decide +kernel) rfl rfl rfl rfl
  have hidle : ∀ m, pendingStation.car.running = some m →
      (pendingStation.ctx m).lkc = 0 ∧ (pendingStation.ctx m).slot = .none := fun m hm => absurd hm (Option.some_ne_none m).symm
  obtain ⟨t, ⟨⟨-, -, -, -, -, -, honly⟩, -⟩, hdown⟩ :=
    (hhold rfl rfl (by decide) rfl (by decide +kernel) (by decide) hidle rfl rfl (by decide)).both pendingStation_down
  have hkept : t.flk = pendingStation.flk := honly.keeps (show Part.flk ∉ _ by decide)
  rw [State.stn, hkept] at hdown
  exact absurd hdown (by decide)

/-! ### A saved start record with a reserved bit of CONFIG (R7, R84, R86) -/

/-- A saved start record without its CRC: every field 0 but the first word and CONFIG, in which the reserved bit 4 and an S4 limit of
1 ms stand. -/
def savedBody : List Byte := toBytes 0x00800001 4 ++ List.replicate 44 0 ++ toBytes 0x00010010 4 ++ List.replicate 72 0

/-- START_RECORD_RESTORE with that record. -/
def restorePacket : List Word := 0x00840011 :: bytesToWords (savedBody ++ toBytes (crc32 savedBody) 4)

/-- A cold start at S4 with an S4 limit of 1 ms, every domain in RUN, Lantern at `restorePacket` in slot 0 as the first command. -/
def restoring : State :=
  { State.reset with
    pwr := { State.reset.pwr with por := false, doms := (List.range 11).map fun m => (m + 1, { st := .run, ack := true }) }
    str := { State.reset.str with step := 4, cold := true, cfg := 0x00010000 }
    hst := { State.reset.hst with isOpen := true, interp := some (0, restorePacket) } }

/-- R7, R86: the record is accepted, and the reserved bit of its CONFIG reads 0. -/
theorem restoring_cfg : Gives .startRecordRestore restoring fun t => t.str.cfg = 0x00010000 :=
  ⟨_, rfl, by decide +kernel⟩

/-- `restoring` stands at S4 as the statement asks, and Lantern has the core. -/
theorem restoring_atS4 : restoring.hst.interp = some (0, restorePacket) ∧ restoring.str.step = 4 ∧ restoring.str.s4Ended = false
    ∧ restoring.lanternTurn = true ∧ restoring.car.running = none ∧ restoring.core.lantern.slot = false ∧ restoring.core.sb = []
    ∧ fld restoring.str.cfg 31 16 ≠ 0 := by
  decide +kernel

/-- The record that `restorePacket` carries passes the checks of R84, and no COUNT of it is 3. -/
theorem restorePacket_record : let b := wordsToBytes ((restorePacket.drop 1).take 32)
    crc32 (b.take 124) = word32 b 124 ∧ word32 b 0 = 0x00800001 ∧ (∀ k, k < 10 → byteAt b (8 + 4 * k) / 4 % 4 ≠ 3)
    ∧ word32 b 48 = 0x00010010 := by
  decide +kernel

/-- Refutes O54: of a saved record that is accepted it says that its CONFIG is taken as it stands. The reserved bits of CONFIG read 0
(R7, R86), so bit 4 of the CONFIG in `restorePacket` is not taken. -/
theorem not_hostCode : ¬ Obligations.HostCode := by
  unfold Obligations.HostCode
  intro h
  obtain ⟨-, -, -, -, -, -, -, -, -, hrestore⟩ :=
    h restoring 0 restorePacket (by decide) rfl rfl rfl rfl (by decide)
  obtain ⟨hcrc, hfirst, hcounts, hconfig⟩ := restorePacket_record
  obtain ⟨t, ⟨-, -, -, htaken, -⟩, hcfg⟩ :=
    (hrestore restoring_atS4 rfl rfl rfl rfl hcrc hfirst hcounts).both restoring_cfg
  rw [hcfg, hconfig] at htaken
  exact absurd htaken (by decide)

end Sys2Proof.Machine
end
